-- ==== Sys2Proof/Word.lean ====
section
/-! DEFINITION. The bit vectors the spec names (bytes, command words, response words, frames as words) and the
eight-byte frame as a structure. No arithmetic stands here: byte order, indexing and packing are in Machine/. -/

namespace Sys2Proof

/-- A byte: 8 bits, unsigned (00_scope.md R6). -/
abbrev Byte := BitVec 8

/-- A command word: 56 bits, `{OP, ARG}` (30_encoding.md R33). -/
abbrev CmdWord := BitVec 56

/-- A response word: 40 bits, `{STATUS, DATA}` (30_encoding.md R40). -/
abbrev RespWord := BitVec 40

/-- The DATA half of a response word (30_encoding.md R40). -/
abbrev Data := BitVec 32

/-- A frame written as one 64-bit value, frame byte 0 most significant (30_encoding.md R31). -/
abbrev FrameWord := BitVec 64

/-- An index into the frame buffer: 3 bits, every value valid (20_memory.md R20, 30_encoding.md R36). -/
abbrev FbIndex := BitVec 3

/-- Eight things, one for each index of the frame-buffer space (20_memory.md R20), in wire order. -/
structure Octet (α : Type) where
  /-- item of frame byte 0 -/
  b0 : α
  /-- item of frame byte 1 -/
  b1 : α
  /-- item of frame byte 2 -/
  b2 : α
  /-- item of frame byte 3 -/
  b3 : α
  /-- item of frame byte 4 -/
  b4 : α
  /-- item of frame byte 5 -/
  b5 : α
  /-- item of frame byte 6 -/
  b6 : α
  /-- item of frame byte 7 -/
  b7 : α
  deriving DecidableEq, Repr

/-- A frame: 8 bytes, `b0` command family, `b1` command code, `b2`..`b5` payload, `b6` checksum, `b7` terminator
(30_encoding.md R30). -/
abbrev Frame := Octet Byte

end Sys2Proof
end

