-- ==== Sys2Proof/Config.lean ====
section
/-! DEFINITION. What is fixed for every run: the hardwired parameters of 00_scope.md R4, in one place as
93_implementation_defined.md U9 asks, and the values the spec leaves free, as constants with no body. -/

namespace Sys2Proof

/-! ## The hardwired parameters (00_scope.md R4)

Not listed as constants, because the functions that realise them have no such input: `REFIN`, `REFOUT` = false (no step
of the checksum reflects), `XOROUT` = 0x00 (no step XORs at the end), `CHECK_TERMINATOR` = false (no step of decode reads
frame byte 7; assumption log 20). The widths `CW_WIDTH` = 56 and `RW_WIDTH` = 40 are the types of Word.lean. The literals
are the spec's, unaudited against the repository (U9; assumption log 12, UNVERIFIED, unsafe). -/

/-- `FRAME_LEN`: bytes in every frame (00_scope.md R4). -/
abbrev Config.frameLen : Nat := 8

/-- `POLY`: the low 8 bits of the generator polynomial (00_scope.md R4). -/
abbrev Config.poly : Byte := 0x07#8

/-- `INIT`: the accumulator at the start of every checksum (00_scope.md R4). -/
abbrev Config.init : Byte := 0xFF#8

/-- `TERMINATOR`: frame byte 7 on the wire (00_scope.md R4). -/
abbrev Config.terminator : Byte := 0xFF#8

/-- `CMD_GETSN`, its command family (00_scope.md R4). -/
abbrev Config.getsnFamily : Byte := 0x20#8

/-- `CMD_GETSN`, its command code (00_scope.md R4). -/
abbrev Config.getsnCode : Byte := 0x02#8

/-! ## Free values -/

/-- The byte that a read finds in a frame-buffer byte no operation has written since reset: any value, drawn afresh by
every operation that reads the buffer (93_implementation_defined.md U2). The first argument is the number of that
operation among those that read the buffer (`State.draws`), the second the index read. It has no body, so no proof can
know what it is. DESIGN CHOICE (assumption log 3), safe. -/
opaque Config.freeByte : Nat → FbIndex → Byte

/-- An error kind of the document's taxonomy (60_exceptions.md R80), or a kind of the host's own
(92_eei_decisions.md D25). -/
inductive ErrorKind where
  /-- `EnumerationError` (out of scope, R80) -/
  | enumeration
  /-- `DeviceNotFoundError` (out of scope, R80) -/
  | deviceNotFound
  /-- `TransportConfigError` (out of scope, R80) -/
  | transportConfig
  /-- `TransportOpenError` (out of scope, R80) -/
  | transportOpen
  /-- `PartialWriteError` (R84) -/
  | partialWrite
  /-- `ShortReadError` (R81) -/
  | shortRead
  /-- `UnexpectedReplyError` (R82) -/
  | unexpectedReply
  /-- `ChecksumError` (R83) -/
  | checksum
  /-- a kind of the host's own (D25) -/
  | hostsOwn
  deriving DecidableEq, Repr, Inhabited

/-- `transport_error_kind`: the kind of a transport call that answers with an error and no count
(42_frame_transaction.md R79, left open by 92_eei_decisions.md D25). No body: any kind. Assumption log 13, safe. -/
opaque Config.transportErrorKind : ErrorKind

end Sys2Proof
end

