-- ==== Sys2Proof/Syntax.lean ====
section
/-! DEFINITION. The instructions: one constructor for each of the sixteen rows of spec/opcode_table.json, and the items
a host can present to the block. -/

namespace Sys2Proof

/-- One constructor for each row of spec/opcode_table.json: the nine operations (30_encoding.md R42), the five
pseudo-instructions (R47) and the two wire frames (R32). -/
inductive Instr where
  /-- `CRC.INIT` (40_checksum.md R52) -/
  | crcInit
  /-- `CRC.UPD b` (40_checksum.md R53) -/
  | crcUpd (b : Byte)
  /-- `CRC.RD` (40_checksum.md R54) -/
  | crcRd
  /-- `FB.WR i, b` (41_frame_codec.md R60) -/
  | fbWr (i : FbIndex) (b : Byte)
  /-- `FB.RD i` (41_frame_codec.md R61) -/
  | fbRd (i : FbIndex)
  /-- `FRM.STAMP` (41_frame_codec.md R65) -/
  | frmStamp
  /-- `FRM.VERIFY` (41_frame_codec.md R66) -/
  | frmVerify
  /-- `FRM.BUILD fam, code, p0, p1, p2, p3` (42_frame_transaction.md R71) -/
  | frmBuild (fam code p0 p1 p2 p3 : Byte)
  /-- `FRM.DECODE efam, ecode, n` (42_frame_transaction.md R73) -/
  | frmDecode (efam ecode : Byte) (n : BitVec 4)
  /-- `REQ.GETSN`, shorthand for `FRM.BUILD 0x20, 0x02, 0, 0, 0, 0` (30_encoding.md R47) -/
  | reqGetsn
  /-- `RSP.GETSN n`, shorthand for `FRM.DECODE 0x20, 0x02, n` (30_encoding.md R47) -/
  | rspGetsn (n : BitVec 4)
  /-- `CHECKSUM b0, .., bk-1`, k >= 0 (30_encoding.md R47) -/
  | checksumOf (bs : List Byte)
  /-- `FB.LOAD b0, .., bk-1`, 1 <= k <= 8 (30_encoding.md R47) -/
  | fbLoad (bs : List Byte)
  /-- `FB.DUMP` (30_encoding.md R47) -/
  | fbDump
  /-- `GETSN.REQ`, the serial-number request frame going out (30_encoding.md R32) -/
  | getsnReq
  /-- `GETSN.RPL`, a serial-number reply frame coming in: serial number, checksum byte, terminator byte
  (30_encoding.md R32) -/
  | getsnRpl (serial : Data) (cc tt : Byte)
  deriving DecidableEq, Repr

/-- What a host can present next. The block takes command words and a reset (00_scope.md R5, 70_reset_and_hazards.md
R100); the two frame items are the host's moves between the frame buffer and the transport (20_memory.md R22,
42_frame_transaction.md R76), DESIGN CHOICE of assumption log 8. -/
inductive Stimulus where
  /-- the host presents a command word (30_encoding.md R33) -/
  | command (cw : CmdWord)
  /-- the host has the block hand out this frame and gives it to the transport (42_frame_transaction.md R76, steps 1 to 3) -/
  | sendFrame (w : FrameWord)
  /-- the transport has returned this frame, all 8 bytes, and the host loads and decodes it (R76, steps 5 to 7) -/
  | receiveFrame (w : FrameWord)
  /-- the reset is applied from outside (70_reset_and_hazards.md R100) -/
  | reset
  deriving DecidableEq, Repr

end Sys2Proof
end

