-- ==== Sys2Proof/WellFormed.lean ====
section
/-! DEFINITION. Which terms of `Instr` are instructions: the operand ranges that the operand types do not already
enforce. -/

namespace Sys2Proof

/-- The operand ranges of the spec: `n` in 0..8 for FRM.DECODE and RSP.GETSN (30_encoding.md R39, R44), one to eight
bytes for FB.LOAD (R47). Every other operand field admits every value (R41). -/
def Instr.wellFormed : Instr → Bool
  | .crcInit => true
  | .crcUpd _ => true
  | .crcRd => true
  | .fbWr _ _ => true
  | .fbRd _ => true
  | .frmStamp => true
  | .frmVerify => true
  | .frmBuild _ _ _ _ _ _ => true
  | .frmDecode _ _ n => decide (n.toNat ≤ Config.frameLen)
  | .reqGetsn => true
  | .rspGetsn n => decide (n.toNat ≤ Config.frameLen)
  | .checksumOf _ => true
  | .fbLoad bs => decide (1 ≤ bs.length ∧ bs.length ≤ Config.frameLen)
  | .fbDump => true
  | .getsnReq => true
  | .getsnRpl _ _ _ => true

/-- The nine operations of 30_encoding.md R42, which alone have a command word of their own (R47). -/
def Instr.isOperation : Instr → Bool
  | .crcInit => true
  | .crcUpd _ => true
  | .crcRd => true
  | .fbWr _ _ => true
  | .fbRd _ => true
  | .frmStamp => true
  | .frmVerify => true
  | .frmBuild _ _ _ _ _ _ => true
  | .frmDecode _ _ _ => true
  | .reqGetsn => false
  | .rspGetsn _ => false
  | .checksumOf _ => false
  | .fbLoad _ => false
  | .fbDump => false
  | .getsnReq => false
  | .getsnRpl _ _ _ => false

end Sys2Proof
end

