-- ==== Sys2Proof/Decode.lean ====
section
/-! DEFINITION. From words to instructions and back: the decoder of a command word (30_encoding.md R33 to R44), the
reader of the two wire frames (R32), and the encoder. The decoder is total: every one of the 2^56 words is either an
operation or rejected by the name of what is wrong (R44). -/

namespace Sys2Proof

/-- Why a word is no instruction. -/
inductive DecodeError where
  /-- the opcode selects no operation (30_encoding.md R43) -/
  | reservedOpcode (op : Byte)
  /-- a 1 in a must-be-zero bit of the opcode's format (R44 (a)) -/
  | mustBeZero (op : Byte)
  /-- `FRM.DECODE` with `n` in 9..15 (R44 (b)) -/
  | reservedCount (n : BitVec 4)
  /-- an outgoing frame that is not the one request R32 specifies -/
  | notGetsnRequest (w : FrameWord)
  /-- an incoming frame whose bytes 0 and 1 are not 20 02, "not a GETSN.RPL" (R32) -/
  | notGetsnReply (w : FrameWord)
  /-- the reset is an event, with no command word (70_reset_and_hazards.md R100) -/
  | resetEvent
  deriving DecidableEq, Repr

/-! ## The decoder -/

/-- `OP = CW[55:48]` (30_encoding.md R33). -/
def opcodeOf (cw : CmdWord) : Byte := cw.extractLsb' 48 8

/-- Format Z: `ARG[47:0]` must be zero (30_encoding.md R34). -/
def decodeZ (cw : CmdWord) (i : Instr) : Except DecodeError Instr :=
  if cw.extractLsb' 0 48 = 0#48 then .ok i else .error (.mustBeZero (opcodeOf cw))

/-- Format B: `b = CW[7:0]`, `CW[47:8]` must be zero (30_encoding.md R35). -/
def decodeB (cw : CmdWord) (k : Byte → Instr) : Except DecodeError Instr :=
  if cw.extractLsb' 8 40 = 0#40 then .ok (k (cw.extractLsb' 0 8)) else .error (.mustBeZero (opcodeOf cw))

/-- Format X: `i = CW[2:0]`, `CW[47:3]` must be zero (30_encoding.md R36). -/
def decodeX (cw : CmdWord) (k : FbIndex → Instr) : Except DecodeError Instr :=
  if cw.extractLsb' 3 45 = 0#45 then .ok (k (cw.extractLsb' 0 3)) else .error (.mustBeZero (opcodeOf cw))

/-- Format XB: `i = CW[10:8]`, `b = CW[7:0]`, `CW[47:11]` must be zero (30_encoding.md R37). -/
def decodeXB (cw : CmdWord) (k : FbIndex → Byte → Instr) : Except DecodeError Instr :=
  if cw.extractLsb' 11 37 = 0#37 then .ok (k (cw.extractLsb' 8 3) (cw.extractLsb' 0 8))
  else .error (.mustBeZero (opcodeOf cw))

/-- Format F: six frame bytes in wire order from the top of `ARG`; no bit is unused (30_encoding.md R38). -/
def decodeF (cw : CmdWord) : Except DecodeError Instr :=
  .ok (.frmBuild (cw.extractLsb' 40 8) (cw.extractLsb' 32 8) (cw.extractLsb' 24 8) (cw.extractLsb' 16 8)
    (cw.extractLsb' 8 8) (cw.extractLsb' 0 8))

/-- Format D: `efam = CW[47:40]`, `ecode = CW[39:32]`, `n = CW[3:0]`, `CW[31:4]` must be zero, `n` in 0..8
(30_encoding.md R39, R44). -/
def decodeD (cw : CmdWord) : Except DecodeError Instr :=
  if cw.extractLsb' 4 28 = 0#28 then
    if (cw.extractLsb' 0 4).toNat ≤ Config.frameLen then
      .ok (.frmDecode (cw.extractLsb' 40 8) (cw.extractLsb' 32 8) (cw.extractLsb' 0 4))
    else .error (.reservedCount (cw.extractLsb' 0 4))
  else .error (.mustBeZero (opcodeOf cw))

/-- The decoder of a command word: the opcode alone selects the format (30_encoding.md R33, R42); an unlisted opcode is
reserved (R43). -/
def decode (cw : CmdWord) : Except DecodeError Instr :=
  if opcodeOf cw = 0x01#8 then decodeZ cw .crcInit
  else if opcodeOf cw = 0x02#8 then decodeB cw .crcUpd
  else if opcodeOf cw = 0x03#8 then decodeZ cw .crcRd
  else if opcodeOf cw = 0x04#8 then decodeXB cw .fbWr
  else if opcodeOf cw = 0x05#8 then decodeX cw .fbRd
  else if opcodeOf cw = 0x06#8 then decodeZ cw .frmStamp
  else if opcodeOf cw = 0x07#8 then decodeZ cw .frmVerify
  else if opcodeOf cw = 0x08#8 then decodeF cw
  else if opcodeOf cw = 0x09#8 then decodeD cw
  else .error (.reservedOpcode (opcodeOf cw))

/-- The one request frame R32 specifies, `20 02 00 00 00 00 50 FF` as a 64-bit value (30_encoding.md R31, R32). -/
def getsnRequestWord : FrameWord := 0x20020000000050FF#64

/-- An outgoing frame: `GETSN.REQ` or none of the specified (30_encoding.md R32). -/
def decodeSent (w : FrameWord) : Except DecodeError Instr :=
  if w = getsnRequestWord then .ok .getsnReq else .error (.notGetsnRequest w)

/-- An incoming frame: `GETSN.RPL` when bytes 0 and 1 are 20 02 (match and mask of 30_encoding.md R32). That its checksum
byte fits is left to its meaning, which answers CHECKSUM where it does not (DESIGN CHOICE, assumption log 9). -/
def decodeReceived (w : FrameWord) : Except DecodeError Instr :=
  if w.extractLsb' 56 8 = Config.getsnFamily ∧ w.extractLsb' 48 8 = Config.getsnCode then
    .ok (.getsnRpl (w.extractLsb' 16 32) (w.extractLsb' 8 8) (w.extractLsb' 0 8))
  else .error (.notGetsnReply w)

/-- The instruction that a presented item stands for. -/
def Stimulus.decode : Stimulus → Except DecodeError Instr
  | .command cw => Sys2Proof.decode cw
  | .sendFrame w => decodeSent w
  | .receiveFrame w => decodeReceived w
  | .reset => .error .resetEvent

/-- A wire frame of the opcode table as the item that presents it: the request goes out, every other frame comes in.
A reply of serial number 0 and terminator FF is the same 64 bits as the request (95_test_vectors.md P8 d); a table word
names no direction, and is then the request (assumption log 9). -/
def frameStimulus (w : FrameWord) : Stimulus :=
  if w = getsnRequestWord then .sendFrame w else .receiveFrame w

/-- A word of the opcode table as the item that presents it: up to 56 bits a command word, up to 64 a wire frame. -/
def tableStimulus (nbits w : Nat) : Option Stimulus :=
  if nbits ≤ 56 then some (.command (BitVec.ofNat 56 w))
  else if nbits ≤ 64 then some (frameStimulus (BitVec.ofNat 64 w))
  else none

/-- The instruction the decoder reads from a word of the opcode table (bit 0 the least significant). -/
def decodeTableWord (nbits w : Nat) : Option Instr :=
  match tableStimulus nbits w with
  | some p => p.decode.toOption
  | none => none

/-! ## The opcode map as data -/

/-- A row of the opcode map: `CW & mask = match` selects it (30_encoding.md R42). -/
structure OpcodeRow where
  /-- the opcode -/
  op : Byte
  /-- the bits that must be 1 where the mask is 1 -/
  matchBits : CmdWord
  /-- the bits that are compared -/
  maskBits : CmdWord
  deriving DecidableEq, Repr

/-- The nine rows of 30_encoding.md R42, as listed there. -/
def opcodeMap : List OpcodeRow :=
  [⟨0x01#8, 0x01000000000000#56, 0xFFFFFFFFFFFFFF#56⟩,
   ⟨0x02#8, 0x02000000000000#56, 0xFFFFFFFFFFFF00#56⟩,
   ⟨0x03#8, 0x03000000000000#56, 0xFFFFFFFFFFFFFF#56⟩,
   ⟨0x04#8, 0x04000000000000#56, 0xFFFFFFFFFFF800#56⟩,
   ⟨0x05#8, 0x05000000000000#56, 0xFFFFFFFFFFFFF8#56⟩,
   ⟨0x06#8, 0x06000000000000#56, 0xFFFFFFFFFFFFFF#56⟩,
   ⟨0x07#8, 0x07000000000000#56, 0xFFFFFFFFFFFFFF#56⟩,
   ⟨0x08#8, 0x08000000000000#56, 0xFF000000000000#56⟩,
   ⟨0x09#8, 0x09000000000000#56, 0xFF0000FFFFFFF0#56⟩]

/-- A command word selects a row: the masked bits fit, and for FRM.DECODE also `n <= 8` (30_encoding.md R42). -/
def OpcodeRow.selects (r : OpcodeRow) (cw : CmdWord) : Bool :=
  decide (cw &&& r.maskBits = r.matchBits) && (r.op != 0x09#8 || decide ((cw.extractLsb' 0 4).toNat ≤ Config.frameLen))

/-- The opcode of an operation; the other rows have no encoding of their own (30_encoding.md R42, R47). -/
def Instr.opcode : Instr → Option Byte
  | .crcInit => some 0x01#8
  | .crcUpd _ => some 0x02#8
  | .crcRd => some 0x03#8
  | .fbWr _ _ => some 0x04#8
  | .fbRd _ => some 0x05#8
  | .frmStamp => some 0x06#8
  | .frmVerify => some 0x07#8
  | .frmBuild _ _ _ _ _ _ => some 0x08#8
  | .frmDecode _ _ _ => some 0x09#8
  | .reqGetsn => none
  | .rspGetsn _ => none
  | .checksumOf _ => none
  | .fbLoad _ => none
  | .fbDump => none
  | .getsnReq => none
  | .getsnRpl _ _ _ => none

/-! ## The encoder -/

/-- Format Z (30_encoding.md R34). -/
def wordZ (op : Byte) : CmdWord := op ++ 0#48

/-- Format B (30_encoding.md R35). -/
def wordB (op b : Byte) : CmdWord := op ++ 0#40 ++ b

/-- Format X (30_encoding.md R36). -/
def wordX (op : Byte) (i : FbIndex) : CmdWord := op ++ 0#45 ++ i

/-- Format XB (30_encoding.md R37). -/
def wordXB (op : Byte) (i : FbIndex) (b : Byte) : CmdWord := op ++ 0#37 ++ i ++ b

/-- Format F (30_encoding.md R38). -/
def wordF (op fam code p0 p1 p2 p3 : Byte) : CmdWord := op ++ fam ++ code ++ p0 ++ p1 ++ p2 ++ p3

/-- Format D (30_encoding.md R39). -/
def wordD (op efam ecode : Byte) (n : BitVec 4) : CmdWord := op ++ efam ++ ecode ++ 0#28 ++ n

/-- The command words `FB.WR k, b0; FB.WR k+1, b1; ..` of FB.LOAD from index `k` on (30_encoding.md R47). -/
def loadWords (k : Nat) : List Byte → List Stimulus
  | [] => []
  | b :: bs => .command (wordXB 0x04#8 (BitVec.ofNat 3 k) b) :: loadWords (k + 1) bs

/-- What the host presents for an instruction: the command word of an operation (30_encoding.md R42), the command words
of a pseudo-instruction's expansion (R47), the frame of a wire frame (R32). -/
def encode : Instr → List Stimulus
  | .crcInit => [.command (wordZ 0x01#8)]
  | .crcUpd b => [.command (wordB 0x02#8 b)]
  | .crcRd => [.command (wordZ 0x03#8)]
  | .fbWr i b => [.command (wordXB 0x04#8 i b)]
  | .fbRd i => [.command (wordX 0x05#8 i)]
  | .frmStamp => [.command (wordZ 0x06#8)]
  | .frmVerify => [.command (wordZ 0x07#8)]
  | .frmBuild fam code p0 p1 p2 p3 => [.command (wordF 0x08#8 fam code p0 p1 p2 p3)]
  | .frmDecode efam ecode n => [.command (wordD 0x09#8 efam ecode n)]
  | .reqGetsn => [.command (wordF 0x08#8 Config.getsnFamily Config.getsnCode 0#8 0#8 0#8 0#8)]
  | .rspGetsn n => [.command (wordD 0x09#8 Config.getsnFamily Config.getsnCode n)]
  | .checksumOf bs =>
    .command (wordZ 0x01#8) :: (bs.map fun b => .command (wordB 0x02#8 b)) ++ [.command (wordZ 0x03#8)]
  | .fbLoad bs => loadWords 0 bs
  | .fbDump =>
    [.command (wordX 0x05#8 0#3), .command (wordX 0x05#8 1#3), .command (wordX 0x05#8 2#3),
     .command (wordX 0x05#8 3#3), .command (wordX 0x05#8 4#3), .command (wordX 0x05#8 5#3),
     .command (wordX 0x05#8 6#3), .command (wordX 0x05#8 7#3)]
  | .getsnReq => [.sendFrame getsnRequestWord]
  | .getsnRpl serial cc tt => [.receiveFrame (Config.getsnFamily ++ Config.getsnCode ++ serial ++ cc ++ tt)]

/-- How many items the host presents for an instruction (30_encoding.md R47). -/
def Instr.wordCount : Instr → Nat
  | .crcInit => 1
  | .crcUpd _ => 1
  | .crcRd => 1
  | .fbWr _ _ => 1
  | .fbRd _ => 1
  | .frmStamp => 1
  | .frmVerify => 1
  | .frmBuild _ _ _ _ _ _ => 1
  | .frmDecode _ _ _ => 1
  | .reqGetsn => 1
  | .rspGetsn _ => 1
  | .checksumOf bs => bs.length + 2
  | .fbLoad bs => bs.length
  | .fbDump => 8
  | .getsnReq => 1
  | .getsnRpl _ _ _ => 1

end Sys2Proof
end

