-- ==== Sys2Proof/Machine/Flags.lean ====
section
/-! DEFINITION. The hardware has no flags (10_state.md R15): what an operation reports stands in its response word. Here
are the STATUS codes and the packing of a response word (30_encoding.md R40). -/

namespace Sys2Proof.Machine

/-- The names of the STATUS values (30_encoding.md R40, 60_exceptions.md R80). -/
inductive Status where
  /-- the operation completed -/
  | ok
  /-- `SHORT_READ` (60_exceptions.md R81) -/
  | shortRead
  /-- `UNEXPECTED_REPLY` (R82) -/
  | unexpectedReply
  /-- `CHECKSUM` (R83) -/
  | checksum
  /-- `PARTIAL_WRITE`, the host's own, never returned by the block (R84) -/
  | partialWrite
  /-- `ILLEGAL_CMD` (R85) -/
  | illegalCmd
  deriving DecidableEq, Repr

/-- The STATUS numbers (30_encoding.md R40). -/
def Status.code : Status → Byte
  | .ok => 0x00#8
  | .shortRead => 0x01#8
  | .unexpectedReply => 0x02#8
  | .checksum => 0x03#8
  | .partialWrite => 0x04#8
  | .illegalCmd => 0xFF#8

/-- `resp(s, d)`: the response word `{STATUS, DATA}` (30_encoding.md R40). -/
def resp (st : Status) (d : Data) : RespWord := st.code ++ d

/-- `STATUS = RW[39:32]` (30_encoding.md R40). -/
def statusOf (rw : RespWord) : Byte := rw.extractLsb' 32 8

/-- `DATA = RW[31:0]` (30_encoding.md R40). -/
def dataOf (rw : RespWord) : Data := rw.extractLsb' 0 32

end Sys2Proof.Machine
end

