-- ==== Sys2Proof/Machine/Operands.lean ====
section
/-! DEFINITION. Indexing, byte order and widening: the frame buffer's index (20_memory.md R20), `be32` (R24), the frame
as a 64-bit value (30_encoding.md R31) and zero extension (R41). -/

namespace Sys2Proof.Machine

/-- Item `i` of eight (20_memory.md R20). -/
def octetGet {α : Type} (o : Octet α) (i : FbIndex) : α :=
  match i.toNat with
  | 0 => o.b0
  | 1 => o.b1
  | 2 => o.b2
  | 3 => o.b3
  | 4 => o.b4
  | 5 => o.b5
  | 6 => o.b6
  | _ => o.b7

/-- `o` with item `i` replaced (20_memory.md R20). -/
def octetSet {α : Type} (o : Octet α) (i : FbIndex) (v : α) : Octet α :=
  match i.toNat with
  | 0 => { o with b0 := v }
  | 1 => { o with b1 := v }
  | 2 => { o with b2 := v }
  | 3 => { o with b3 := v }
  | 4 => { o with b4 := v }
  | 5 => { o with b5 := v }
  | 6 => { o with b6 := v }
  | _ => { o with b7 := v }

/-- Eight times the same item. -/
def octetFill {α : Type} (v : α) : Octet α := ⟨v, v, v, v, v, v, v, v⟩

/-- The eight items in wire order, item 0 first (20_memory.md R22). -/
def octetList {α : Type} (o : Octet α) : List α := [o.b0, o.b1, o.b2, o.b3, o.b4, o.b5, o.b6, o.b7]

/-- `be32`: four bytes as a 32-bit unsigned value, the first most significant (20_memory.md R24). -/
def be32 (b0 b1 b2 b3 : Byte) : Data := b0 ++ b1 ++ b2 ++ b3

/-- Byte `k` of a 32-bit value, `k` = 0 the most significant (20_memory.md R23): the inverse of `be32`. -/
def be32Byte (v : Data) (k : Nat) : Byte := v.extractLsb' (8 * (3 - k)) 8

/-- A byte in DATA, zero-extended (30_encoding.md R40, R41). -/
def zext32 (b : Byte) : Data := b.setWidth 32

/-- A frame as a 64-bit value, byte 0 most significant (30_encoding.md R31). -/
def frameToWord (F : Frame) : FrameWord := F.b0 ++ F.b1 ++ F.b2 ++ F.b3 ++ F.b4 ++ F.b5 ++ F.b6 ++ F.b7

/-- The frame of a 64-bit value: `F[0] = W[63:56]`, .., `F[7] = W[7:0]` (30_encoding.md R31). -/
def frameOfWord (w : FrameWord) : Frame :=
  ⟨w.extractLsb' 56 8, w.extractLsb' 48 8, w.extractLsb' 40 8, w.extractLsb' 32 8,
   w.extractLsb' 24 8, w.extractLsb' 16 8, w.extractLsb' 8 8, w.extractLsb' 0 8⟩

end Sys2Proof.Machine
end

