-- ==== Sys2Proof/Machine/State.lean ====
section
/-! DEFINITION. The state of the machine (10_state.md), the reasons a step or a procedure can stop, and the state after
reset. The table `T` is "fixed for every run" (10_state.md R19 (a)): it is the definition `crcTable`, not a field
(assumption log 16). -/

namespace Sys2Proof.Machine

/-- The state of the block: the 72 bits of the spec (`acc`, `fb`), and the two fields that say what a never-written byte
reads as. What the host presents, the answers and the frames sent are no part of it (10_state.md R19). -/
structure Block where
  /-- `ACC`, the accumulator (10_state.md R10) -/
  acc : Byte
  /-- `FB[0]`..`FB[7]`, the frame buffer (10_state.md R11); read through `State.fbByte` -/
  fb : Frame
  /-- the model's own: which bytes of `FB` an operation has written since reset, the mark that 10_state.md R17 allows
  (assumption log 3) -/
  written : Octet Bool
  /-- the model's own: how many operations have read `FB`, the argument of a fresh draw of a never-written byte
  (93_implementation_defined.md U2; assumption log 3) -/
  draws : Nat
  deriving DecidableEq, Repr

/-- The block beside its host: the block's state, and the record of what goes in and what has come out. The stream of
stimuli is a parameter of the block's step (10_state.md R19 (b)): `stepOn` takes it so. It stands here too because the
interface of `step` has no other argument than the state (assumption log 1). -/
structure State extends Block where
  /-- the model's own: what the host will present, first one first (10_state.md R19 (b); assumption log 1) -/
  pending : List Stimulus
  /-- the model's own: the response words returned so far, newest first (30_encoding.md R40; assumption log 4) -/
  responses : List RespWord
  /-- the model's own: the frames handed to the transport, newest first (42_frame_transaction.md R76 step 3;
  assumption log 8) -/
  sent : List Frame
  deriving DecidableEq, Repr

/-- Why the machine stops with a fault: never. The block has no trap, no halt and no stuck state; an error is the
response word of its operation (60_exceptions.md R88), so there is no constructor. Safe. -/
inductive Fault where
  deriving DecidableEq, Repr

/-- Why a meaning is refused. `step` raises none of these. -/
inductive Refusal where
  /-- Raised by an arm of `exec` whose instruction has no meaning yet (none in this model). Safe: the machine stops. -/
  | notModelled (mnemonic : String)
  /-- Raised by `execFbLoad` on a term that is no instruction: FB.LOAD with no byte, or with a ninth byte for which no
  index exists (30_encoding.md R47: "1 <= k <= 8"). No word decodes to such a term. Safe (assumption log 15). -/
  | illFormed
  /-- Raised by `getSerialNumber` when the transport answers with an error instead of a count; its kind is the open
  parameter (93_implementation_defined.md U7 "the transaction procedure is `refuse`d for such runs"). Safe
  (assumption log 13). -/
  | transportError (kind : ErrorKind)
  deriving DecidableEq, Repr

/-- The machine right after reset (10_state.md R18): `ACC` = 0xFF; `FB` unspecified, so no byte is marked written and
the stored zeros are never what a read answers (DESIGN CHOICE, assumption logs 2 and 3); nothing presented, nothing
answered, nothing sent (assumption logs 1, 4, 8). -/
def State.reset : State where
  acc := Config.init
  fb := ⟨0#8, 0#8, 0#8, 0#8, 0#8, 0#8, 0#8, 0#8⟩
  written := ⟨false, false, false, false, false, false, false, false⟩
  draws := 0
  pending := []
  responses := []
  sent := []

end Sys2Proof.Machine
end

