-- ==== Sys2Proof/Machine/Ops.lean ====
section
/-! DEFINITION. The shared operations on the state: returning a response, delivering an error, reading and writing the
frame buffer, and the reset event. -/

namespace Sys2Proof.Machine

/-- The operation ends by returning `resp(st, d)` (00_scope.md R6, 30_encoding.md R40); no other effect. -/
def State.respond (st : Status) (d : Data) (s : State) : State :=
  { s with responses := resp st d :: s.responses }

/-- Delivery of an error, this hardware's exception entry (60_exceptions.md R88): the response word carries the kind and
its context, and nothing else happens: nothing is saved, no register or mode changes, control goes nowhere. There is
nothing to return from (R89). -/
def State.deliverError (st : Status) (context : Data) (s : State) : State := s.respond st context

/-- A reserved command word: `resp(ILLEGAL_CMD, 0)`, no state change (30_encoding.md R43, R44, 60_exceptions.md R85). -/
def State.illegalCommand (s : State) : State := s.deliverError .illegalCmd 0#32

/-- What a read of `FB[i]` finds: the byte last written, or, where no operation has written it since reset, a free value
(10_state.md R18, 93_implementation_defined.md U2). -/
def State.fbByte (s : State) (i : FbIndex) : Byte :=
  if octetGet s.written i then octetGet s.fb i else Config.freeByte s.draws i

/-- The frame an operation finds in `FB`, one value for each byte throughout the operation (assumption log 5). -/
def State.fbFrame (s : State) : Frame :=
  ⟨s.fbByte 0#3, s.fbByte 1#3, s.fbByte 2#3, s.fbByte 3#3, s.fbByte 4#3, s.fbByte 5#3, s.fbByte 6#3, s.fbByte 7#3⟩

/-- After an operation that read `FB`: the next one draws afresh what was never written (93_implementation_defined.md
U2). No spec state changes (20_memory.md R26). -/
def State.drawn (s : State) : State := { s with draws := s.draws + 1 }

/-- `FB[i] <- b` (00_scope.md R6). -/
def State.writeFb (i : FbIndex) (b : Byte) (s : State) : State :=
  { s with fb := octetSet s.fb i b, written := octetSet s.written i true }

/-- All eight bytes written in one step (20_memory.md R26). -/
def State.writeFrame (F : Frame) (s : State) : State := { s with fb := F, written := octetFill true }

/-- The reset event (70_reset_and_hazards.md R100, R101): `ACC` and `FB` go to the values of `State.reset`, with no
response word. What the host presents next, what has been answered and sent, and the count of draws are no state of the
block and stay (assumption log 6). -/
def State.applyReset (s : State) : State :=
  { s with acc := State.reset.acc, fb := State.reset.fb, written := State.reset.written }

end Sys2Proof.Machine
end

