-- ==== Sys2Proof/Machine/FrameCodec.lean ====
section
/-! DEFINITION. The frame codec (41_frame_codec.md): `frame_crc`, `stamp`, `verify`, the operations FB.WR, FB.RD,
FRM.STAMP, FRM.VERIFY and the pseudo-instructions FB.LOAD, FB.DUMP (30_encoding.md R47). None of them reads or writes
`ACC` (10_state.md R10). -/

namespace Sys2Proof.Machine

/-! ## The functions -/

/-- `frame_crc(F) = checksum(F[0..6))` (41_frame_codec.md R62). -/
def frameCrc (F : Frame) : Byte := checksum [F.b0, F.b1, F.b2, F.b3, F.b4, F.b5]

/-- `stamp(F)`: byte 6 replaced by `frame_crc(F)`, byte 7 untouched (41_frame_codec.md R63). -/
def stamp (F : Frame) : Frame := { F with b6 := frameCrc F }

/-- `verify(F)`: byte 6 equals the recomputed checksum; byte 7 is not examined (41_frame_codec.md R64). -/
def verify (F : Frame) : Bool := frameCrc F == F.b6

/-! ## The operations -/

/-- `FB.WR i, b` on the state (41_frame_codec.md R60). -/
def State.fbWr (i : FbIndex) (b : Byte) (s : State) : State := (s.writeFb i b).respond .ok 0#32

/-- `FB.RD i` on the state (41_frame_codec.md R61). -/
def State.fbRd (i : FbIndex) (s : State) : State := s.drawn.respond .ok (zext32 (s.fbByte i))

/-- `FRM.STAMP` on the state: `FB[6] <- frame_crc(FB)`, answer it (41_frame_codec.md R65). -/
def State.frmStamp (s : State) : State :=
  (s.drawn.writeFb 6#3 (frameCrc s.fbFrame)).respond .ok (zext32 (frameCrc s.fbFrame))

/-- `FRM.VERIFY` on the state: 1 or 0, STATUS OK either way (41_frame_codec.md R66). -/
def State.frmVerify (s : State) : State := s.drawn.respond .ok (if verify s.fbFrame then 1#32 else 0#32)

/-- `FB.WR k, b0; FB.WR k+1, b1; ..` (30_encoding.md R47). -/
def State.fbLoadFrom : Nat → List Byte → State → State
  | _, [], s => s
  | k, b :: bs, s => State.fbLoadFrom (k + 1) bs (s.fbWr (BitVec.ofNat 3 k) b)

/-- `FB.RD i; FB.RD i'; ..` for a list of indices (30_encoding.md R47). -/
def State.fbRdAll : List FbIndex → State → State
  | [], s => s
  | i :: is, s => State.fbRdAll is (s.fbRd i)

/-- The indices 0 to 7 in wire order (20_memory.md R20, R22). -/
def fbIndices : List FbIndex := [0#3, 1#3, 2#3, 3#3, 4#3, 5#3, 6#3, 7#3]

/-- `FB.DUMP` on the state: `FB.RD 0; ..; FB.RD 7` (30_encoding.md R47). -/
def State.fbDump (s : State) : State := s.fbRdAll fbIndices

/-- The byte that read `i` of an `FB.DUMP` answers: the first `i` reads have come before it. -/
def State.dumpedByte (s : State) (i : FbIndex) : Byte := State.fbByte { s with draws := s.draws + i.toNat } i

/-- The result of an `FB.DUMP`, "the eight `DATA[7:0]` values in order" (30_encoding.md R47). -/
def State.dumpedFrame (s : State) : Frame :=
  ⟨s.dumpedByte 0#3, s.dumpedByte 1#3, s.dumpedByte 2#3, s.dumpedByte 3#3,
   s.dumpedByte 4#3, s.dumpedByte 5#3, s.dumpedByte 6#3, s.dumpedByte 7#3⟩

/-! ## The meanings -/

/-- FB.WR (41_frame_codec.md R60). -/
def execFbWr (i : FbIndex) (b : Byte) (s : State) : Host.Outcome State Fault Refusal := .next (s.fbWr i b)

/-- FB.RD (41_frame_codec.md R61). -/
def execFbRd (i : FbIndex) (s : State) : Host.Outcome State Fault Refusal := .next (s.fbRd i)

/-- FRM.STAMP (41_frame_codec.md R65). -/
def execFrmStamp (s : State) : Host.Outcome State Fault Refusal := .next s.frmStamp

/-- FRM.VERIFY (41_frame_codec.md R66). -/
def execFrmVerify (s : State) : Host.Outcome State Fault Refusal := .next s.frmVerify

/-- FB.LOAD: `FB.WR 0, b0; ..; FB.WR k-1, bk-1`, 1 <= k <= 8 (30_encoding.md R47). A list of another length is no
instruction: no word decodes to it, and it is refused as ill-formed (assumption log 15). -/
def execFbLoad (bs : List Byte) (s : State) : Host.Outcome State Fault Refusal :=
  if 1 ≤ bs.length ∧ bs.length ≤ Config.frameLen then .next (s.fbLoadFrom 0 bs) else .refused .illFormed

/-- FB.DUMP: `FB.RD 0; ..; FB.RD 7`, with all eight responses (30_encoding.md R47). -/
def execFbDump (s : State) : Host.Outcome State Fault Refusal := .next s.fbDump

end Sys2Proof.Machine
end

