-- ==== Sys2Proof/Machine/FrameTransaction.lean ====
section
/-! DEFINITION. Building a request and decoding a reply (42_frame_transaction.md): `build`, `decode`, the operations
FRM.BUILD, FRM.DECODE, the pseudo-instructions REQ.GETSN, RSP.GETSN (30_encoding.md R47), and what the host does with
the two wire frames GETSN.REQ, GETSN.RPL (R32). -/

namespace Sys2Proof.Machine

/-! ## The functions -/

/-- `build(fam, code, p0, p1, p2, p3)`: the stamped frame with the terminator 0xFF (42_frame_transaction.md R70); the
byte under the stamp is immaterial. -/
def buildFrame (fam code p0 p1 p2 p3 : Byte) : Frame :=
  stamp ⟨fam, code, p0, p1, p2, p3, 0#8, Config.terminator⟩

/-- The result of `decode`: a 32-bit value, or an error kind with its context (42_frame_transaction.md R72). -/
inductive DecodeResult where
  /-- `Ok(v)` -/
  | value (v : Data)
  /-- `Err(ShortRead, requested, actual)` -/
  | shortRead (requested actual : Byte)
  /-- `Err(UnexpectedReply, expected, actual)`, two command bytes each -/
  | unexpectedReply (efam ecode afam acode : Byte)
  /-- `Err(Checksum, expected, actual)` -/
  | checksum (expected actual : Byte)
  deriving DecidableEq, Repr

/-- `decode(F, n, efam, ecode)`: the four steps in their fixed order, the first that fails decides
(42_frame_transaction.md R72, R75). No step reads byte 7 (30_encoding.md R45). -/
def decodeReply (F : Frame) (n : BitVec 4) (efam ecode : Byte) : DecodeResult :=
  if n.toNat < Config.frameLen then .shortRead (BitVec.ofNat 8 Config.frameLen) (n.setWidth 8)
  else if F.b0 ≠ efam ∨ F.b1 ≠ ecode then .unexpectedReply efam ecode F.b0 F.b1
  else if verify F = false then .checksum (frameCrc F) F.b6
  else .value (be32 F.b2 F.b3 F.b4 F.b5)

/-! ## The operations -/

/-- `FRM.BUILD` on the state: all of `FB` in one step, answer the checksum written (42_frame_transaction.md R71). -/
def State.frmBuild (fam code p0 p1 p2 p3 : Byte) (s : State) : State :=
  (s.writeFrame (buildFrame fam code p0 p1 p2 p3)).respond .ok (zext32 (buildFrame fam code p0 p1 p2 p3).b6)

/-- The response of each result of `decode` (42_frame_transaction.md R73): an error is delivered as its status with the
context packed expected before actual (30_encoding.md R40). A short read has read no byte of `FB`. -/
def State.answerDecode (s : State) : DecodeResult → State
  | .shortRead requested actual => s.deliverError .shortRead (0#16 ++ requested ++ actual)
  | .unexpectedReply efam ecode afam acode => s.drawn.deliverError .unexpectedReply (be32 efam ecode afam acode)
  | .checksum expected actual => s.drawn.deliverError .checksum (0#16 ++ expected ++ actual)
  | .value v => s.drawn.respond .ok v

/-- `FRM.DECODE` on the state (42_frame_transaction.md R73): it writes nothing; `n` above 8 is a reserved word
(30_encoding.md R44). -/
def State.frmDecode (efam ecode : Byte) (n : BitVec 4) (s : State) : State :=
  if n.toNat ≤ Config.frameLen then s.answerDecode (decodeReply s.fbFrame n efam ecode) else s.illegalCommand

/-! ## The frame between the buffer and the transport (42_frame_transaction.md R76) -/

/-- Steps 2 and 3: dump the frame and hand its 8 bytes to the transport, byte 0 first (20_memory.md R22; the length is
the literal 8, 70_reset_and_hazards.md R108). -/
def State.dumpAndSend (s : State) : State := { s.fbDump with sent := s.dumpedFrame :: s.sent }

/-- `REQ.GETSN` on the state: `FRM.BUILD 0x20, 0x02, 0, 0, 0, 0` (30_encoding.md R47). -/
def State.reqGetsn (s : State) : State :=
  s.frmBuild Config.getsnFamily Config.getsnCode 0#8 0#8 0#8 0#8

/-- `RSP.GETSN n` on the state: `FRM.DECODE 0x20, 0x02, n` (30_encoding.md R47). -/
def State.rspGetsn (n : BitVec 4) (s : State) : State := s.frmDecode Config.getsnFamily Config.getsnCode n

/-- Steps 5 to 7 with all 8 bytes returned: load the received frame and decode it as a serial-number reply. -/
def State.receiveReply (F : Frame) (s : State) : State := (s.fbLoadFrom 0 (octetList F)).rspGetsn 8#4

/-- A frame other than the specified request goes out: the host assembles it with FB.WR (70_reset_and_hazards.md R107)
and sends it as it stands (DESIGN CHOICE, assumption log 10). -/
def State.sendByHand (F : Frame) (s : State) : State := (s.fbLoadFrom 0 (octetList F)).dumpAndSend

/-- What a presented item that is no instruction does: a reserved command word answers ILLEGAL_CMD (30_encoding.md R43,
R44); a frame R32 does not name is moved as any frame is (assumption log 10); a reset resets. -/
def State.presentOther (s : State) : Stimulus → State
  | .command _ => s.illegalCommand
  | .sendFrame w => s.sendByHand (frameOfWord w)
  | .receiveFrame w => s.receiveReply (frameOfWord w)
  | .reset => s.applyReset

/-! ## The meanings -/

/-- FRM.BUILD (42_frame_transaction.md R71). -/
def execFrmBuild (fam code p0 p1 p2 p3 : Byte) (s : State) : Host.Outcome State Fault Refusal :=
  .next (s.frmBuild fam code p0 p1 p2 p3)

/-- FRM.DECODE (42_frame_transaction.md R73). -/
def execFrmDecode (efam ecode : Byte) (n : BitVec 4) (s : State) : Host.Outcome State Fault Refusal :=
  .next (s.frmDecode efam ecode n)

/-- REQ.GETSN (30_encoding.md R47, 42_frame_transaction.md R71). -/
def execReqGetsn (s : State) : Host.Outcome State Fault Refusal := .next s.reqGetsn

/-- RSP.GETSN (30_encoding.md R47, 42_frame_transaction.md R73). -/
def execRspGetsn (n : BitVec 4) (s : State) : Host.Outcome State Fault Refusal := .next (s.rspGetsn n)

/-- GETSN.REQ, the request frame going out (30_encoding.md R32): built, dumped, handed to the transport
(42_frame_transaction.md R76 steps 1 to 3). DESIGN CHOICE, assumption log 8. -/
def execGetsnReq (s : State) : Host.Outcome State Fault Refusal := .next s.reqGetsn.dumpAndSend

/-- GETSN.RPL, a reply frame coming in (30_encoding.md R32): loaded and decoded (42_frame_transaction.md R76 steps 5 to
7), where a checksum byte that does not fit answers CHECKSUM. DESIGN CHOICE, assumption logs 8 and 9. -/
def execGetsnRpl (serial : Data) (cc tt : Byte) (s : State) : Host.Outcome State Fault Refusal :=
  .next (s.receiveReply ⟨Config.getsnFamily, Config.getsnCode, be32Byte serial 0, be32Byte serial 1, be32Byte serial 2,
    be32Byte serial 3, cc, tt⟩)

end Sys2Proof.Machine
end

