-- ==== Sys2Proof/Machine/Dispatch.lean ====
section
/-! DEFINITION. exec: one arm for each row of spec/opcode_table.json, one direct call of its meaning. -/

namespace Sys2Proof.Machine

def exec (i : Instr) (s : State) : Host.Outcome State Fault Refusal :=
  match i with
  | .crcInit => Sys2Proof.Machine.execCrcInit s
  | .crcUpd b => Sys2Proof.Machine.execCrcUpd b s
  | .crcRd => Sys2Proof.Machine.execCrcRd s
  | .fbWr k b => Sys2Proof.Machine.execFbWr k b s
  | .fbRd k => Sys2Proof.Machine.execFbRd k s
  | .frmStamp => Sys2Proof.Machine.execFrmStamp s
  | .frmVerify => Sys2Proof.Machine.execFrmVerify s
  | .frmBuild fam code p0 p1 p2 p3 => Sys2Proof.Machine.execFrmBuild fam code p0 p1 p2 p3 s
  | .frmDecode efam ecode n => Sys2Proof.Machine.execFrmDecode efam ecode n s
  | .reqGetsn => Sys2Proof.Machine.execReqGetsn s
  | .rspGetsn n => Sys2Proof.Machine.execRspGetsn n s
  | .checksumOf bs => Sys2Proof.Machine.execChecksumOf bs s
  | .fbLoad bs => Sys2Proof.Machine.execFbLoad bs s
  | .fbDump => Sys2Proof.Machine.execFbDump s
  | .getsnReq => Sys2Proof.Machine.execGetsnReq s
  | .getsnRpl serial cc tt => Sys2Proof.Machine.execGetsnRpl serial cc tt s

end Sys2Proof.Machine
end

