-- ==== Sys2Proof/Machine/Stream.lean ====
section
/-! DEFINITION. The step with the stimulus as its parameter (10_state.md R19 (b)), and a run over a stream of stimuli.
Both are functions of the block's state and the stimuli alone. -/

namespace Sys2Proof.Machine

/-- One presented item: if it decodes to an instruction, that instruction is executed, and if not, `presentOther` says
what happens: for a command word, the ILLEGAL_CMD response (30_encoding.md R43, R44). -/
def present (p : Stimulus) (s : State) : Host.Outcome State Fault Refusal :=
  match p.decode with
  | .ok i => exec i s
  | .error _ => .next (s.presentOther p)

/-- What one step, or a run, answers: the block's next state, the response words it returned and the frames it handed
out, newest first (30_encoding.md R40). -/
structure Reaction where
  /-- the block's state afterwards -/
  block : Block
  /-- the response words returned, newest first -/
  responses : List RespWord
  /-- the frames handed to the transport, newest first -/
  sent : List Frame
  deriving DecidableEq, Repr

/-- The step of the block with the stimulus as a parameter and no state but the block's (10_state.md R19 (b), 00_scope.md
R5). -/
def stepOn (p : Stimulus) (b : Block) : Host.Outcome Reaction Fault Refusal :=
  match present p { toBlock := b, pending := [], responses := [], sent := [] } with
  | .next t => .next ⟨t.toBlock, t.responses, t.sent⟩
  | .fault r => .fault r
  | .refused r => .refused r

/-- A run over a stream of stimuli, in the order presented (10_state.md R14, R19 (b), 20_memory.md R27). -/
def runOn : List Stimulus → Block → Host.Outcome Reaction Fault Refusal
  | [], b => .next ⟨b, [], []⟩
  | p :: ps, b =>
    match stepOn p b with
    | .fault r => .fault r
    | .refused r => .refused r
    | .next r =>
      match runOn ps r.block with
      | .next q => .next ⟨q.block, q.responses ++ r.responses, q.sent ++ r.sent⟩
      | .fault r => .fault r
      | .refused r => .refused r

end Sys2Proof.Machine
end

