-- ==== Sys2Proof/Machine/Step.lean ====
section
/-! DEFINITION. One step: the block takes the next item the host presents and executes it as one atomic operation
(00_scope.md R5, 20_memory.md R26). There is no program counter (10_state.md R14). -/

namespace Sys2Proof.Machine

/-- One step. With nothing presented the block does nothing (assumption log 1). Otherwise the next item is taken and
presented to the block; the block's own step, with the item as its parameter, is `stepOn`. -/
def step (s : State) : Host.Outcome State Fault Refusal :=
  match s.pending with
  | [] => .next s
  | p :: rest => present p { s with pending := rest }

/-- `s` with a word of the opcode table presented as the very next item: a command word for up to 56 bits, a wire frame
for up to 64 (assumption log 19). -/
def State.withFetchWord (s : State) (nbits w : Nat) : State :=
  match tableStimulus nbits w with
  | some p => { s with pending := p :: s.pending }
  | none => s

end Sys2Proof.Machine
end

