-- ==== Sys2Proof/Machine/Session.lean ====
section
/-! DEFINITION. The transaction procedure `get_serial_number` as the host runs it on the block (42_frame_transaction.md
R76), for every answer of the transport (R79). It is host software, not an operation of the block, and one serialised
whole: overlapping transactions have no meaning (93_implementation_defined.md U1; assumption log 14). -/

namespace Sys2Proof.Machine

/-- What the transport's write answers (42_frame_transaction.md R79): a count in 0..8, or an error. -/
inductive WriteAnswer where
  /-- `w` bytes written, 0 <= w <= 8 -/
  | count (w : Fin 9)
  /-- the call returned an error and no count -/
  | error
  deriving DecidableEq, Repr

/-- What the transport's read answers (42_frame_transaction.md R79): a count in 0..8 with a buffer whose first `n` bytes
are the bytes read, or an error. -/
inductive ReadAnswer where
  /-- the first `n` bytes of `buf` were read -/
  | count (n : Fin 9) (buf : Frame)
  /-- the call returned an error and no count -/
  | error
  deriving DecidableEq, Repr

/-- What `get_serial_number` returns to its caller (42_frame_transaction.md R76 steps 4 and 7). -/
inductive TransactionResult where
  /-- `Err(PartialWrite, requested, actual)`, status code 0x04 of the host (60_exceptions.md R84, assumption log 18) -/
  | partialWrite (requested actual : Nat)
  /-- the response word of `RSP.GETSN n` (none only if the block had answered nothing) -/
  | response (rw : Option RespWord)
  deriving DecidableEq, Repr

/-- The block after steps 1 to 3: the request is built, dumped and handed to the transport. -/
def State.requestSent (s : State) : State := s.reqGetsn.dumpAndSend

/-- The block after steps 5 to 7: the `n` bytes returned are loaded from index 0, and `RSP.GETSN n` answers. -/
def State.replyDecoded (n : Fin 9) (buf : Frame) (s : State) : State :=
  (s.fbLoadFrom 0 ((octetList buf).take n.val)).rspGetsn (BitVec.ofNat 4 n.val)

/-- `get_serial_number` for the two answers of the transport (42_frame_transaction.md R76): PARTIAL_WRITE before every
decode error (60_exceptions.md R87 (c)), no retry, and a transport error refused with the open kind
(93_implementation_defined.md U7). -/
def getSerialNumber (wr : WriteAnswer) (rd : ReadAnswer) (s : State) :
    Host.Outcome (TransactionResult × State) Fault Refusal :=
  match wr with
  | .error => .refused (.transportError Config.transportErrorKind)
  | .count w =>
    if w.val < Config.frameLen then .next (.partialWrite Config.frameLen w.val, s.requestSent)
    else
      match rd with
      | .error => .refused (.transportError Config.transportErrorKind)
      | .count n buf =>
        .next (.response (s.requestSent.replyDecoded n buf).responses.head?, s.requestSent.replyDecoded n buf)

end Sys2Proof.Machine
end

