-- ==== Sys2Proof/Safety.lean ====
section
/-! DEFINITION. The terms in which statements about the machine are written: what a command word does, which response
words are legal, which registers an instruction writes, and what running several instructions is. -/

namespace Sys2Proof.Safety

open Sys2Proof.Machine

/-! ## What a command word does -/

/-- Presented as the next item, `cw` is taken and executed as `i`. -/
def runsAs (cw : CmdWord) (i : Instr) : Prop :=
  ∀ (s : State) (rest : List Stimulus),
    step { s with pending := .command cw :: rest } = exec i { s with pending := rest }

/-- Presented as the next item, `cw` is taken, answered with `ILLEGAL_CMD` and DATA 0, and changes nothing else
(60_exceptions.md R85). -/
def answersIllegal (cw : CmdWord) : Prop :=
  ∀ (s : State) (rest : List Stimulus),
    step { s with pending := .command cw :: rest } =
      .next { s with pending := rest, responses := 0xFF00000000#40 :: s.responses }

/-! ## Legal responses -/

/-- What a response word of the block can be (30_encoding.md R40, 60_exceptions.md R81 to R85): `OK`; `SHORT_READ` with
8 asked and fewer got; `UNEXPECTED_REPLY` with different command bytes; `CHECKSUM` with different checksums;
`ILLEGAL_CMD` with DATA 0; never `PARTIAL_WRITE`, never another STATUS. -/
def legalResponse (rw : RespWord) : Bool :=
  (statusOf rw == 0x00#8) ||
  (statusOf rw == 0x01#8 && (decide (0x800 ≤ (dataOf rw).toNat) && decide ((dataOf rw).toNat < 0x808))) ||
  (statusOf rw == 0x02#8 && (dataOf rw).extractLsb' 16 16 != (dataOf rw).extractLsb' 0 16) ||
  (statusOf rw == 0x03#8 && ((dataOf rw).extractLsb' 16 16 == 0#16 &&
    (dataOf rw).extractLsb' 8 8 != (dataOf rw).extractLsb' 0 8)) ||
  (statusOf rw == 0xFF#8 && dataOf rw == 0#32)

/-- The invariant of a run: every response word returned so far is legal. -/
def responsesLegal (s : State) : Prop := ∀ rw ∈ s.responses, legalResponse rw = true

/-! ## Which registers an instruction writes (10_state.md R10, R11) -/

/-- The instructions that write `ACC`: CRC.INIT and CRC.UPD, and CHECKSUM, which expands to them. -/
def writesAcc : Instr → Bool
  | .crcInit => true
  | .crcUpd _ => true
  | .checksumOf _ => true
  | .crcRd => false
  | .fbWr _ _ => false
  | .fbRd _ => false
  | .frmStamp => false
  | .frmVerify => false
  | .frmBuild _ _ _ _ _ _ => false
  | .frmDecode _ _ _ => false
  | .reqGetsn => false
  | .rspGetsn _ => false
  | .fbLoad _ => false
  | .fbDump => false
  | .getsnReq => false
  | .getsnRpl _ _ _ => false

/-- The instructions that write `FB[k]`: FB.WR of that index, FRM.STAMP for index 6, FRM.BUILD, and the rows that expand
to them or load a frame. -/
def writesFb (k : FbIndex) : Instr → Bool
  | .fbWr i _ => i == k
  | .frmStamp => k == 6#3
  | .frmBuild _ _ _ _ _ _ => true
  | .reqGetsn => true
  | .fbLoad bs => decide (k.toNat < bs.length)
  | .getsnReq => true
  | .getsnRpl _ _ _ => true
  | .crcInit => false
  | .crcUpd _ => false
  | .crcRd => false
  | .fbRd _ => false
  | .frmVerify => false
  | .frmDecode _ _ _ => false
  | .rspGetsn _ => false
  | .checksumOf _ => false
  | .fbDump => false

/-- The checksum stream: the CRC.* operations, and CHECKSUM, which expands to them (70_reset_and_hazards.md R110). -/
def isCrcStream : Instr → Bool
  | .crcInit => true
  | .crcUpd _ => true
  | .crcRd => true
  | .checksumOf _ => true
  | .fbWr _ _ => false
  | .fbRd _ => false
  | .frmStamp => false
  | .frmVerify => false
  | .frmBuild _ _ _ _ _ _ => false
  | .frmDecode _ _ _ => false
  | .reqGetsn => false
  | .rspGetsn _ => false
  | .fbLoad _ => false
  | .fbDump => false
  | .getsnReq => false
  | .getsnRpl _ _ _ => false

/-- `FB[k]` holds `b`, written since reset. -/
def holds (s : State) (k : FbIndex) (b : Byte) : Prop := octetGet s.written k = true ∧ octetGet s.fb k = b

/-- Every byte of `FB` has been written since reset, and together they hold `F`. -/
def holdsFrame (s : State) (F : Frame) : Prop := s.written = octetFill true ∧ s.fb = F

/-! ## Several instructions, and changes to a frame -/

/-- Instructions executed one after another, stopping at the first that does not answer a next state. -/
def execAll : List Instr → State → Host.Outcome State Fault Refusal
  | [], s => .next s
  | i :: is, s =>
    match exec i s with
    | .next t => execAll is t
    | .fault r => .fault r
    | .refused r => .refused r

/-- The frame with the bits of `e` flipped in bytes 0 to 6, byte 0 on top (30_encoding.md R31); byte 7 is kept. -/
def flipBits (F : Frame) (e : BitVec 56) : Frame := frameOfWord (frameToWord F ^^^ (e ++ 0#8))

/-- The pattern with bit `j` of the 56 set. -/
def bitAt (j : Fin 56) : BitVec 56 := 1#56 <<< j.val

end Sys2Proof.Safety
end

