-- ==== Sys2Proof/Certificates/Slice0/Obligations.lean ====
section
/-! DEFINITION. The statements for the provers, one for each rule or group of rules of spec/ that says what an operation
or the machine does. Response words are written out as `STATUS ++ DATA` (30_encoding.md R40). `State.fbFrame` and
`State.fbByte` are the model's reading of the frame buffer: the stored byte where one has been written since reset, a
free value where none has (statement FbReadsStoredOrFreeByte). Every statement holds for every value of the model's own
fields `draws`, `responses`, `sent`, `pending`. -/

open Sys2Proof Sys2Proof.Machine Sys2Proof.Safety

/-! ## Reset, the step, the response -/

/-- 10_state.md R18, 70_reset_and_hazards.md R100, R101. After reset `ACC` is 0xFF, no byte of `FB` counts as written and
the table is the listing; and the reset event, applied between any two operations, does just that, with no response. Two
clauses are the model's choice: every byte of `FB` is then "unspecified" in the form of a free value (assumption log 3),
and the reset event is a presented item that leaves what is presented, answered, sent and drawn as it is (assumption
log 6). -/
def Obligations.ResetPutsAccAtFFAndForgetsTheFrame : Prop :=
  State.reset.acc = 0xFF#8 ∧ (∀ k, octetGet State.reset.written k = false) ∧
  (∀ x : Byte, tableListing[x.toNat]? = some (crcTable x).toNat) ∧
  ∀ (s : State) (rest : List Stimulus), ∃ t,
    step { s with pending := .reset :: rest } = .next t ∧
    t.acc = 0xFF#8 ∧ (∀ k, octetGet t.written k = false) ∧ (∀ k, t.fbByte k = Config.freeByte t.draws k) ∧
    t.pending = rest ∧ t.responses = s.responses ∧ t.sent = s.sent ∧ t.draws = s.draws

/-- The step: an item that decodes to a well-formed instruction is taken, and the step is `exec` of that instruction;
nothing else is around it (there is no program counter, 10_state.md R14). With nothing presented nothing happens
(the model's choice, assumption log 1). -/
def Obligations.StepRunsTheDecodedInstruction : Prop :=
  (∀ (s : State) (p : Stimulus) (rest : List Stimulus) (i : Instr),
    p.decode = .ok i → i.wellFormed = true →
    step { s with pending := p :: rest } = exec i { s with pending := rest }) ∧
  ∀ s : State, s.pending = [] → step s = .next s

/-- 30_encoding.md R46: the nine example words of the rule run as the instructions it names. -/
def Obligations.ExampleWordsRunAsWritten : Prop :=
  runsAs 0x01000000000000#56 .crcInit ∧
  runsAs 0x02000000000020#56 (.crcUpd 0x20#8) ∧
  runsAs 0x03000000000000#56 .crcRd ∧
  runsAs 0x04000000000686#56 (.fbWr 6#3 0x86#8) ∧
  runsAs 0x05000000000007#56 (.fbRd 7#3) ∧
  runsAs 0x06000000000000#56 .frmStamp ∧
  runsAs 0x07000000000000#56 .frmVerify ∧
  runsAs 0x08200200000000#56 (.frmBuild 0x20#8 0x02#8 0#8 0#8 0#8 0#8) ∧
  runsAs 0x09200200000008#56 (.frmDecode 0x20#8 0x02#8 8#4)

/-- 70_reset_and_hazards.md R111: every operation completes. In every state whatever, the step answers a next state:
no fault and no refusal (the idle step, with nothing presented, is the model's, assumption log 1). -/
def Obligations.EveryStepCompletes : Prop := ∀ s : State, ∃ t, step s = .next t

/-- 30_encoding.md R40, "Exactly one response word is returned for every command word", for every command word, legal or
reserved. -/
def Obligations.OneResponseForEveryCommandWord : Prop :=
  ∀ (s : State) (cw : CmdWord) (rest : List Stimulus), ∃ t rw,
    step { s with pending := .command cw :: rest } = .next t ∧
    t.pending = rest ∧ t.responses = rw :: s.responses ∧ t.sent = s.sent

/-- A whole stream of command words: after as many steps as there are words, all are answered, one word each. -/
def Obligations.AStreamOfWordsIsAnsweredWordByWord : Prop :=
  ∀ (cws : List CmdWord) (s : State) (rest : List Stimulus), ∃ t rs,
    Sys2Proof.core.run cws.length { s with pending := cws.map .command ++ rest } = .next t ∧
    t.pending = rest ∧ rs.length = cws.length ∧ t.responses = rs ++ s.responses ∧ t.sent = s.sent

/-- 30_encoding.md R40, 60_exceptions.md R81 to R85, as an invariant of every step: only the listed STATUS values come
out of the block, never PARTIAL_WRITE, each error with the context its rule names. -/
def Obligations.ResponsesStayLegal : Prop :=
  ∀ s t : State, responsesLegal s → step s = .next t → responsesLegal t

/-- The invariant holds after reset, where nothing has been answered. -/
def Obligations.ResponsesLegalAtReset : Prop := responsesLegal State.reset

/-- 60_exceptions.md R88, R89. An operation whose response is not `OK` has changed nothing but the response, so the next
command finds `FB` and `ACC` as they were. -/
def Obligations.ErrorsChangeNoState : Prop :=
  ∀ (s t : State) (cw : CmdWord) (rest : List Stimulus) (rw : RespWord),
    step { s with pending := .command cw :: rest } = .next t → t.responses = rw :: s.responses → statusOf rw ≠ 0x00#8 →
    t.acc = s.acc ∧ t.fb = s.fb ∧ t.written = s.written ∧ t.pending = rest ∧ t.sent = s.sent

/-! ## Encoding -/

/-- 30_encoding.md R42, R43, R44: every one of the 2^56 command words either is selected by exactly one row of the opcode
map and runs as a well-formed operation of that row's opcode, or is selected by none and answers ILLEGAL_CMD
(60_exceptions.md R85). -/
def Obligations.EveryWordIsOneRowOrIllegal : Prop :=
  ∀ cw : CmdWord,
    (∃ r ∈ opcodeMap, r.selects cw = true ∧ (∀ r' ∈ opcodeMap, r'.selects cw = true → r' = r) ∧
      ∃ i : Instr, i.opcode = some r.op ∧ i.wellFormed = true ∧ runsAs cw i) ∨
    ((∀ r ∈ opcodeMap, r.selects cw = false) ∧ answersIllegal cw)

/-- Every well-formed operation, with every operand at every value its encoding admits, is encoded as one command word,
and that word decodes to it. -/
def Obligations.EncodedOperationDecodesToItself : Prop :=
  ∀ i : Instr, i.isOperation = true → i.wellFormed = true →
    ∃ cw, encode i = [.command cw] ∧ decode cw = .ok i

/-- The other way round: a command word that decodes at all decodes to a well-formed operation whose encoding is that
word, so no two words mean the same. -/
def Obligations.DecodedWordIsTheOperationsEncoding : Prop :=
  ∀ (cw : CmdWord) (i : Instr), decode cw = .ok i →
    i.isOperation = true ∧ i.wellFormed = true ∧ encode i = [.command cw]

/-- The two wire frames of 30_encoding.md R32: each is read back from the frame it is, and every incoming frame with
bytes 20 02 is the GETSN.RPL of its own fields. Two things are the model's choice: that a frame is a presented item, going
out or coming in (assumption log 8), and that bytes 20 02 make a GETSN.RPL whatever the checksum byte, which R32 constrains
and the meaning answers with CHECKSUM (assumption log 9). -/
def Obligations.WireFramesReadBack : Prop :=
  encode .getsnReq = [.sendFrame 0x20020000000050FF#64] ∧
  (Stimulus.sendFrame 0x20020000000050FF#64).decode = .ok .getsnReq ∧
  (∀ (serial : Data) (cc tt : Byte), ∃ w, encode (.getsnRpl serial cc tt) = [.receiveFrame w] ∧
    (Stimulus.receiveFrame w).decode = .ok (.getsnRpl serial cc tt) ∧
    w &&& 0xFFFF000000000000#64 = 0x2002000000000000#64) ∧
  ∀ w : FrameWord, w &&& 0xFFFF000000000000#64 = 0x2002000000000000#64 →
    ∃ i, (Stimulus.receiveFrame w).decode = .ok i ∧ encode i = [.receiveFrame w]

/-- 30_encoding.md R43: an opcode 0x00 or 0x0A to 0xFF selects no operation, whatever the argument field holds. -/
def Obligations.ReservedOpcodesAnswerIllegal : Prop :=
  ∀ (op : Byte) (arg : BitVec 48), (op = 0x00#8 ∨ 0x0A ≤ op.toNat) → answersIllegal (op ++ arg)

/-- 30_encoding.md R47: an instruction is what its encoding does. The items a well-formed instruction is presented as,
run one after another, leave exactly the state that executing the instruction leaves: for an operation its one word, for
a pseudo-instruction every word of its expansion. For a wire frame it is the one item sendFrame or receiveFrame and one
step, which is the model's choice (assumption log 8) and no rule's. -/
def Obligations.RunningTheEncodingIsExecuting : Prop :=
  ∀ (i : Instr) (s : State) (rest : List Stimulus), i.wellFormed = true →
    Sys2Proof.core.run (encode i).length { s with pending := encode i ++ rest } = exec i { s with pending := rest }

/-! ## The checksum engine -/

/-- 10_state.md R12, R13: the table by eight shift-and-XOR steps is the listing, entry by entry. -/
def Obligations.TableIsTheListing : Prop :=
  tableListing.length = 256 ∧ ∀ x : Byte, tableListing[x.toNat]? = some (crcTable x).toNat

/-- 40_checksum.md R56: (a) `T[0] = 0`, (b) linear over XOR, (c) a bijection, (d) `crc8_step(a, b) = T[a] ^ T[b]`. -/
def Obligations.TableLaws : Prop :=
  crcTable 0x00#8 = 0x00#8 ∧
  (∀ x y : Byte, crcTable (x ^^^ y) = crcTable x ^^^ crcTable y) ∧
  Function.Bijective crcTable ∧
  ∀ a b : Byte, crc8Step a b = crcTable a ^^^ crcTable b

/-- 40_checksum.md R57: (a) determinism, (b) order matters, (c) the empty sequence, (d) a checksum is continued by
absorbing more bytes, (e) the difference of two checksums depends on the difference of the bytes alone and is its
checksum from 0x00. -/
def Obligations.ChecksumLaws : Prop :=
  (∀ u v : List Byte, u = v → checksum u = checksum v) ∧
  (checksum [0x01#8, 0x02#8] = 0xCC#8 ∧ checksum [0x02#8, 0x01#8] = 0xFA#8) ∧
  checksum [] = 0xFF#8 ∧
  (∀ u v : List Byte, checksum (u ++ v) = v.foldl crc8Step (checksum u)) ∧
  ∀ u e : List Byte, u.length = e.length →
    checksum (List.zipWith (· ^^^ ·) u e) ^^^ checksum u = e.foldl crc8Step 0x00#8

/-- 40_checksum.md R52. CRC.INIT: `ACC` becomes 0xFF and is answered, nothing else changes, whatever `ACC` held; twice is
as once; its word, and ILLEGAL_CMD for any other argument field. -/
def Obligations.CrcInitStartsAChecksum : Prop :=
  (∀ s : State, exec .crcInit s =
    .next { s with acc := 0xFF#8, responses := 0x00000000FF#40 :: s.responses }) ∧
  (∀ s t u : State, exec .crcInit s = .next t → exec .crcInit t = .next u → u.acc = t.acc ∧ u.fb = t.fb) ∧
  runsAs 0x01000000000000#56 .crcInit ∧
  ∀ arg : BitVec 48, arg ≠ 0#48 → answersIllegal (0x01#8 ++ arg)

/-- 40_checksum.md R53. CRC.UPD: `ACC` becomes `T[ACC ^ b]` and is answered, nothing else changes; a zero byte keeps only
0x00 and 0xFD; the two other corner cases; after CRC.INIT and the bytes of a message `ACC` is its checksum; its words,
and ILLEGAL_CMD where a must-be-zero bit is 1. -/
def Obligations.CrcUpdAbsorbsOneByte : Prop :=
  (∀ (s : State) (b : Byte), exec (.crcUpd b) s =
    .next { s with
      acc := crcTable (s.acc ^^^ b)
      responses := (0x00#8 ++ (crcTable (s.acc ^^^ b)).setWidth 32) :: s.responses }) ∧
  (∀ a : Byte, crcTable (a ^^^ 0x00#8) = a ↔ (a = 0x00#8 ∨ a = 0xFD#8)) ∧
  (∀ a : Byte, crcTable (a ^^^ a) = 0x00#8 ∧ crcTable (a ^^^ (a ^^^ 0xFF#8)) = 0xF3#8) ∧
  (∀ (bs : List Byte) (s t : State), execAll (.crcInit :: bs.map .crcUpd) s = .next t → t.acc = checksum bs) ∧
  (∀ b : Byte, runsAs (0x02#8 ++ 0#40 ++ b) (.crcUpd b)) ∧
  ∀ (z : BitVec 40) (b : Byte), z ≠ 0#40 → answersIllegal (0x02#8 ++ z ++ b)

/-- 40_checksum.md R54. CRC.RD: `ACC` is answered and nothing else changes; after reset it answers 0xFF; its word, and
ILLEGAL_CMD for any other argument field. -/
def Obligations.CrcRdAnswersAcc : Prop :=
  (∀ s : State, exec .crcRd s =
    .next { s with responses := (0x00#8 ++ s.acc.setWidth 32) :: s.responses }) ∧
  exec .crcRd State.reset = .next { State.reset with responses := [0x00000000FF#40] } ∧
  runsAs 0x03000000000000#56 .crcRd ∧
  ∀ arg : BitVec 48, arg ≠ 0#48 → answersIllegal (0x03#8 ++ arg)

/-- 30_encoding.md R47, 40_checksum.md R51. CHECKSUM of any number of bytes: its last response is the checksum of the
bytes, `ACC` holds it, one response came for each of the k + 2 words, and nothing else changes. -/
def Obligations.ChecksumPseudoAnswersTheChecksum : Prop :=
  ∀ (bs : List Byte) (s : State), ∃ rs, rs.length = bs.length + 1 ∧
    exec (.checksumOf bs) s =
      .next { s with
        acc := checksum bs
        responses := (0x00#8 ++ (checksum bs).setWidth 32) :: (rs ++ s.responses) }

/-- 70_reset_and_hazards.md R110. The checksum stream and the frame operations do not disturb each other: run any list of
instructions, and `ACC` ends as if only the CRC instructions had run, while the frame buffer ends as if only the others had (and so do the model's
own marks and draws, assumption log 3, and frames sent, assumption log 8). -/
def Obligations.CrcStreamAndFrameOperationsDoNotInterfere : Prop :=
  ∀ (is : List Instr) (s t : State), execAll is s = .next t →
    (∃ u, execAll (is.filter isCrcStream) s = .next u ∧ u.acc = t.acc) ∧
    ∃ v, execAll (is.filter fun i => !isCrcStream i) s = .next v ∧
      v.fb = t.fb ∧ v.written = t.written ∧ v.draws = t.draws ∧ v.sent = t.sent

/-! ## The frame buffer -/

/-- 10_state.md R18, 20_memory.md R27 (b), 93_implementation_defined.md U2. What a read of `FB[k]` finds: the stored byte
where one has been written since reset, else a free value (the model's form of "any value", assumption log 3). -/
def Obligations.FbReadsStoredOrFreeByte : Prop :=
  (∀ (s : State) (k : FbIndex), octetGet s.fbFrame k = s.fbByte k) ∧
  (∀ (s : State) (k : FbIndex), octetGet s.written k = true → s.fbByte k = octetGet s.fb k) ∧
  ∀ (s : State) (k : FbIndex), octetGet s.written k = false → s.fbByte k = Config.freeByte s.draws k

/-- 41_frame_codec.md R60. FB.WR: `FB[i]` becomes `b` and counts as written; the other seven bytes and everything else
are unchanged; the response is OK, 0; its words, and ILLEGAL_CMD where a must-be-zero bit is 1. -/
def Obligations.FbWrWritesOneByte : Prop :=
  (∀ (s : State) (i : FbIndex) (b : Byte), ∃ t, exec (.fbWr i b) s = .next t ∧ holds t i b ∧
    (∀ k, k ≠ i → octetGet t.fb k = octetGet s.fb k ∧ octetGet t.written k = octetGet s.written k ∧
      t.fbByte k = s.fbByte k) ∧
    t.responses = 0x0000000000#40 :: s.responses ∧
    t.acc = s.acc ∧ t.draws = s.draws ∧ t.pending = s.pending ∧ t.sent = s.sent) ∧
  (∀ (i : FbIndex) (b : Byte), runsAs (0x04#8 ++ 0#37 ++ i ++ b) (.fbWr i b)) ∧
  ∀ (z : BitVec 37) (i : FbIndex) (b : Byte), z ≠ 0#37 → answersIllegal (0x04#8 ++ z ++ i ++ b)

/-- 41_frame_codec.md R61. FB.RD: the byte is answered zero-extended, with nothing written; its words, and ILLEGAL_CMD
where a must-be-zero bit is 1. That a never-written byte answers `Config.freeByte`, and that the count of draws moves, are
the model's choice (assumption log 3). -/
def Obligations.FbRdAnswersOneByte : Prop :=
  (∀ (s : State) (i : FbIndex) (b : Byte), holds s i b → exec (.fbRd i) s =
    .next { s with draws := s.draws + 1, responses := (0x00#8 ++ b.setWidth 32) :: s.responses }) ∧
  (∀ (s : State) (i : FbIndex), octetGet s.written i = false → exec (.fbRd i) s =
    .next { s with
      draws := s.draws + 1
      responses := (0x00#8 ++ (Config.freeByte s.draws i).setWidth 32) :: s.responses }) ∧
  (∀ i : FbIndex, runsAs (0x05#8 ++ 0#45 ++ i) (.fbRd i)) ∧
  ∀ (z : BitVec 45) (i : FbIndex), z ≠ 0#45 → answersIllegal (0x05#8 ++ z ++ i)

/-- 20_memory.md R27 (b): a read returns the latest write. Write `b` to `FB[k]`, run any instructions that do not write
`FB[k]` (10_state.md R11), and FB.RD of it answers `b`. -/
def Obligations.ReadReturnsTheLatestWrite : Prop :=
  ∀ (is : List Instr) (s t : State) (k : FbIndex) (b : Byte),
    (∀ i ∈ is, writesFb k i = false) → execAll (.fbWr k b :: is) s = .next t →
    ∃ u, exec (.fbRd k) t = .next u ∧ u.responses = (0x00#8 ++ b.setWidth 32) :: t.responses

/-- 10_state.md R10, R11, as the frame of every instruction: `ACC` is written only by the instructions that expand to
CRC.INIT or CRC.UPD, `FB[k]` only by those that R11 lists; no instruction touches what the host presents next. What the
wire-frame rows do is the model's choice (assumption log 8): that both write `FB`, and that GETSN.REQ alone hands a frame
to the transport, where the block itself drives no wire (20_memory.md R22). -/
def Obligations.RegistersChangeOnlyWhereListed : Prop :=
  ∀ (i : Instr) (s t : State), exec i s = .next t →
    (writesAcc i = false → t.acc = s.acc) ∧
    (∀ k, writesFb k i = false →
      octetGet t.fb k = octetGet s.fb k ∧ octetGet t.written k = octetGet s.written k) ∧
    (∀ k, writesFb k i = true → octetGet t.written k = true) ∧
    (i ≠ .getsnReq → t.sent = s.sent) ∧
    t.pending = s.pending

/-- 30_encoding.md R47. FB.LOAD of one to eight bytes: byte `j` stands in `FB[j]`, the bytes above are unchanged, one
zero response for each byte, nothing else changes. A list of another length is no instruction and is refused
(the model's choice, assumption log 15). -/
def Obligations.FbLoadFillsFromIndexZero : Prop :=
  (∀ (bs : List Byte) (s : State), 1 ≤ bs.length → bs.length ≤ 8 → ∃ t, exec (.fbLoad bs) s = .next t ∧
    (∀ (k : FbIndex) (b : Byte), bs[k.toNat]? = some b → holds t k b) ∧
    (∀ k : FbIndex, bs.length ≤ k.toNat →
      octetGet t.fb k = octetGet s.fb k ∧ octetGet t.written k = octetGet s.written k) ∧
    t.responses = List.replicate bs.length 0x0000000000#40 ++ s.responses ∧
    t.acc = s.acc ∧ t.draws = s.draws ∧ t.pending = s.pending ∧ t.sent = s.sent) ∧
  ∀ (bs : List Byte) (s : State), bs.length = 0 ∨ 8 < bs.length → exec (.fbLoad bs) s = .refused .illFormed

/-- 30_encoding.md R47. FB.DUMP: eight responses, the bytes of `FB` in wire order (newest first in the list); nothing is
written. A never-written byte answers a free value, drawn at its own read (the model's choice, as the count of draws is,
assumption log 3). -/
def Obligations.FbDumpAnswersTheFrame : Prop :=
  ∀ (s : State) (F : Frame),
    (∀ k : FbIndex, octetGet F k =
      if octetGet s.written k then octetGet s.fb k else Config.freeByte (s.draws + k.toNat) k) →
    exec .fbDump s = .next { s with
      draws := s.draws + 8
      responses :=
        (0x00#8 ++ F.b7.setWidth 32) :: (0x00#8 ++ F.b6.setWidth 32) :: (0x00#8 ++ F.b5.setWidth 32) ::
        (0x00#8 ++ F.b4.setWidth 32) :: (0x00#8 ++ F.b3.setWidth 32) :: (0x00#8 ++ F.b2.setWidth 32) ::
        (0x00#8 ++ F.b1.setWidth 32) :: (0x00#8 ++ F.b0.setWidth 32) :: s.responses }

/-! ## The frame codec -/

/-- 41_frame_codec.md R65. FRM.STAMP: `FB[6]` becomes the checksum of bytes 0 to 5 and is answered; the other seven bytes,
`ACC` and every other piece of the block's state are unchanged; byte 6 is not read; repeating it changes nothing; the
worked example; its word, and ILLEGAL_CMD for any other argument field. That a never-written byte among 0 to 5 counts as a
free value, and that the count of draws goes up by one, are the model's choice (assumption log 3). -/
def Obligations.FrmStampWritesTheChecksum : Prop :=
  (∀ s : State, ∃ t, exec .frmStamp s = .next t ∧
    holds t 6#3 (checksum [s.fbByte 0#3, s.fbByte 1#3, s.fbByte 2#3, s.fbByte 3#3, s.fbByte 4#3, s.fbByte 5#3]) ∧
    (∀ k, k ≠ 6#3 → octetGet t.fb k = octetGet s.fb k ∧ octetGet t.written k = octetGet s.written k) ∧
    t.responses = (0x00#8 ++ t.fb.b6.setWidth 32) :: s.responses ∧
    t.acc = s.acc ∧ t.draws = s.draws + 1 ∧ t.pending = s.pending ∧ t.sent = s.sent) ∧
  (∀ (s t u : State) (F : Frame), holdsFrame s F → exec .frmStamp s = .next t → exec .frmStamp t = .next u →
    holdsFrame t (stamp F) ∧ holdsFrame u (stamp F)) ∧
  (∀ (s t : State) (x : Byte), holdsFrame s ⟨0x20#8, 0x02#8, 0#8, 0#8, 0#8, 0#8, x, 0xFF#8⟩ →
    exec .frmStamp s = .next t →
    holdsFrame t ⟨0x20#8, 0x02#8, 0#8, 0#8, 0#8, 0#8, 0x50#8, 0xFF#8⟩ ∧
      t.responses = 0x0000000050#40 :: s.responses) ∧
  runsAs 0x06000000000000#56 .frmStamp ∧
  ∀ arg : BitVec 48, arg ≠ 0#48 → answersIllegal (0x06#8 ++ arg)

/-- 41_frame_codec.md R66. FRM.VERIFY: OK with 1 where byte 6 is the checksum of bytes 0 to 5, OK with 0 where it is not,
nothing written; byte 7 does not matter; exactly one value of byte 6 verifies; its word, and ILLEGAL_CMD for any other
argument field. That a never-written byte counts as a free value, and that the count of draws goes up by one, are the
model's choice (assumption log 3). -/
def Obligations.FrmVerifyComparesTheChecksum : Prop :=
  (∀ s : State, exec .frmVerify s = .next { s with
    draws := s.draws + 1
    responses := (if checksum [s.fbByte 0#3, s.fbByte 1#3, s.fbByte 2#3, s.fbByte 3#3, s.fbByte 4#3, s.fbByte 5#3] =
      s.fbByte 6#3 then 0x0000000001#40 else 0x0000000000#40) :: s.responses }) ∧
  (∀ (F : Frame) (x : Byte), verify { F with b7 := x } = verify F) ∧
  (∀ F : Frame, ∃! x : Byte, verify { F with b6 := x } = true) ∧
  runsAs 0x07000000000000#56 .frmVerify ∧
  ∀ arg : BitVec 48, arg ≠ 0#48 → answersIllegal (0x07#8 ++ arg)

/-- 41_frame_codec.md R67, the round-trip law: every stamped frame verifies; after FRM.STAMP of a buffer whose bytes 0 to
5 have been written, and after FRM.BUILD of anything, an immediately following FRM.VERIFY answers 1. (Bytes 0 to 5 never
written are drawn afresh by the second operation, 41_frame_codec.md R66, assumption log 3.) -/
def Obligations.StampedAndBuiltFramesVerify : Prop :=
  (∀ F : Frame, verify (stamp F) = true) ∧
  (∀ s t : State, (∀ k : FbIndex, k.toNat < 6 → octetGet s.written k = true) → exec .frmStamp s = .next t →
    ∃ u, exec .frmVerify t = .next u ∧ u.responses = 0x0000000001#40 :: t.responses) ∧
  ∀ (s t : State) (fam code p0 p1 p2 p3 : Byte), exec (.frmBuild fam code p0 p1 p2 p3) s = .next t →
    ∃ u, exec .frmVerify t = .next u ∧ u.responses = 0x0000000001#40 :: t.responses

/-- 41_frame_codec.md R68: (a) a flipped bit in bytes 0 to 5 and (b) a flipped bit in byte 6 of a verifying frame make
`verify` false; (c) a change of byte 7 does not change `verify`; (d) two frames that differ in byte 6 only do not both
verify. -/
def Obligations.VerifyIsSensitiveToEveryCoveredBit : Prop :=
  (∀ (F : Frame) (j : Fin 56), verify F = true → verify (flipBits F (bitAt j)) = false) ∧
  (∀ (F : Frame) (x : Byte), verify { F with b7 := x } = verify F) ∧
  ∀ (F : Frame) (x : Byte), x ≠ F.b6 → verify F = true → verify { F with b6 := x } = false

/-- 40_checksum.md R58, the computed part: every change of two or three bits within bytes 0 to 6 of a verifying frame
makes `verify` false (of one bit: VerifyIsSensitiveToEveryCoveredBit); and the four-bit change the rule names is not
detected. -/
def Obligations.TwoAndThreeBitErrorsAreDetected : Prop :=
  (∀ (F : Frame) (j k : Fin 56), j < k → verify F = true → verify (flipBits F (bitAt j ^^^ bitAt k)) = false) ∧
  (∀ (F : Frame) (j k l : Fin 56), j < k → k < l → verify F = true →
    verify (flipBits F (bitAt j ^^^ bitAt k ^^^ bitAt l)) = false) ∧
  verify ⟨0x20#8, 0x02#8, 0#8, 0#8, 0#8, 0x2A#8, 0x86#8, 0xFF#8⟩ = true ∧
  verify ⟨0xF0#8, 0x02#8, 0#8, 0#8, 0#8, 0x2A#8, 0x82#8, 0xFF#8⟩ = true

/-- 40_checksum.md R58, the table: flipping bit `j` of byte `i` changes the checksum by the listed value, whatever the
frame. Rows are bytes 0 to 5, columns bit 7 down to bit 0. -/
def Obligations.SingleBitChangesOfTheChecksum : Prop :=
  ∀ (F : Frame) (n : Fin 48), (frameCrc (flipBits F (bitAt ⟨55 - n.val, by omega⟩)) ^^^ frameCrc F).toNat =
    ([0xEC, 0x76, 0x3B, 0x9E, 0x4F, 0xA4, 0x52, 0x29,
      0x97, 0xC8, 0x64, 0x32, 0x19, 0x8F, 0xC4, 0x62,
      0x31, 0x9B, 0xCE, 0x67, 0xB0, 0x58, 0x2C, 0x16,
      0x0B, 0x86, 0x43, 0xA2, 0x51, 0xAB, 0xD6, 0x6B,
      0xB6, 0x5B, 0xAE, 0x57, 0xA8, 0x54, 0x2A, 0x15,
      0x89, 0xC7, 0xE0, 0x70, 0x38, 0x1C, 0x0E, 0x07] : List Nat).getD n.val 0

/-- 30_encoding.md R45 (a): the terminator is ignored. Two states that differ only in `FB[7]` (its byte, and whether one
was written) get the same response from FRM.VERIFY and from every FRM.DECODE and RSP.GETSN; FRM.BUILD always writes
0xFF there. (That the states agree in the count of draws, so that never-written bytes are drawn alike, is in the model's
form, assumption log 3.) -/
def Obligations.TerminatorIsNotExamined : Prop :=
  (∀ (s t : State) (i : Instr), (i = .frmVerify ∨ (∃ e c n, i = .frmDecode e c n) ∨ ∃ n, i = .rspGetsn n) →
    (∀ k, k ≠ 7#3 → octetGet t.fb k = octetGet s.fb k ∧ octetGet t.written k = octetGet s.written k) →
    t.draws = s.draws → t.responses = s.responses →
    ∃ s' t', exec i s = .next s' ∧ exec i t = .next t' ∧ t'.responses = s'.responses) ∧
  ∀ (s t : State) (fam code p0 p1 p2 p3 : Byte), exec (.frmBuild fam code p0 p1 p2 p3) s = .next t → holds t 7#3 0xFF#8

/-! ## Requests and replies -/

/-- 20_memory.md R24: `be32` as a number, with the rule's examples. -/
def Obligations.Be32IsBigEndian : Prop :=
  (∀ b0 b1 b2 b3 : Byte, (be32 b0 b1 b2 b3).toNat =
    b0.toNat * 2 ^ 24 + b1.toNat * 2 ^ 16 + b2.toNat * 2 ^ 8 + b3.toNat) ∧
  (∀ v : Data, be32 (be32Byte v 0) (be32Byte v 1) (be32Byte v 2) (be32Byte v 3) = v) ∧
  (be32 0#8 0#8 0#8 0x2A#8).toNat = 42 ∧
  (be32 0x12#8 0x34#8 0x56#8 0x78#8).toNat = 305419896 ∧
  (be32 0xFF#8 0xFF#8 0xFF#8 0xFF#8).toNat = 4294967295 ∧
  (be32 0x80#8 0#8 0#8 0#8).toNat = 2147483648

/-- 42_frame_transaction.md R71, 30_encoding.md R47. FRM.BUILD, and REQ.GETSN as FRM.BUILD 0x20, 0x02, 0, 0, 0, 0: all of
`FB` is the frame built, every byte written; the checksum is answered; nothing else changes, and the old content does not
matter; the two worked examples; every word of the opcode is legal. -/
def Obligations.FrmBuildFillsTheBuffer : Prop :=
  (∀ (i : Instr) (fam code p0 p1 p2 p3 : Byte) (s : State),
    (i = .frmBuild fam code p0 p1 p2 p3 ∨
      (i = .reqGetsn ∧ fam = 0x20#8 ∧ code = 0x02#8 ∧ p0 = 0#8 ∧ p1 = 0#8 ∧ p2 = 0#8 ∧ p3 = 0#8)) →
    exec i s = .next { s with
      fb := ⟨fam, code, p0, p1, p2, p3, checksum [fam, code, p0, p1, p2, p3], 0xFF#8⟩
      written := ⟨true, true, true, true, true, true, true, true⟩
      responses := (0x00#8 ++ (checksum [fam, code, p0, p1, p2, p3]).setWidth 32) :: s.responses }) ∧
  checksum [0x20#8, 0x02#8, 0#8, 0#8, 0#8, 0#8] = 0x50#8 ∧
  checksum [0x20#8, 0x02#8, 0xDE#8, 0xAD#8, 0xBE#8, 0xEF#8] = 0x9A#8 ∧
  ∀ fam code p0 p1 p2 p3 : Byte,
    runsAs (0x08#8 ++ fam ++ code ++ p0 ++ p1 ++ p2 ++ p3) (.frmBuild fam code p0 p1 p2 p3)

/-- 42_frame_transaction.md R72, R73, 60_exceptions.md R81 to R83, 30_encoding.md R39. FRM.DECODE, and RSP.GETSN as
FRM.DECODE 0x20, 0x02 (30_encoding.md R47): short read, then echo, then checksum, then the value; each with its response
word; nothing is written whatever the outcome. Its words, and ILLEGAL_CMD for `n` in 9..15 or a 1 in a must-be-zero bit.
That the count of draws goes up by one where `FB` is read, and that a never-written byte counts as a free value, are the
model's choice (assumption log 3). -/
def Obligations.FrmDecodeTriesItsStepsInOrder : Prop :=
  (∀ (i : Instr) (efam ecode : Byte) (n : BitVec 4) (s : State) (F : Frame),
    (i = .frmDecode efam ecode n ∨ (i = .rspGetsn n ∧ efam = 0x20#8 ∧ ecode = 0x02#8)) →
    (∀ k, octetGet F k = s.fbByte k) →
    (n.toNat < 8 → exec i s = .next { s with
      responses := (0x01#8 ++ 0x0000#16 ++ 0x08#8 ++ n.setWidth 8) :: s.responses }) ∧
    (n.toNat = 8 → (F.b0 ≠ efam ∨ F.b1 ≠ ecode) → exec i s = .next { s with
      draws := s.draws + 1
      responses := (0x02#8 ++ efam ++ ecode ++ F.b0 ++ F.b1) :: s.responses }) ∧
    (n.toNat = 8 → F.b0 = efam → F.b1 = ecode → frameCrc F ≠ F.b6 → exec i s = .next { s with
      draws := s.draws + 1
      responses := (0x03#8 ++ 0x0000#16 ++ frameCrc F ++ F.b6) :: s.responses }) ∧
    (n.toNat = 8 → F.b0 = efam → F.b1 = ecode → frameCrc F = F.b6 → exec i s = .next { s with
      draws := s.draws + 1
      responses := (0x00#8 ++ F.b2 ++ F.b3 ++ F.b4 ++ F.b5) :: s.responses })) ∧
  (∀ (efam ecode : Byte) (n : BitVec 4), n.toNat ≤ 8 →
    runsAs (0x09#8 ++ efam ++ ecode ++ 0#28 ++ n) (.frmDecode efam ecode n)) ∧
  ∀ (efam ecode : Byte) (z : BitVec 28) (n : BitVec 4), (z ≠ 0#28 ∨ 8 < n.toNat) →
    answersIllegal (0x09#8 ++ efam ++ ecode ++ z ++ n)

/-- 42_frame_transaction.md R72: "In step 1 no byte of `F` is read": a short read is answered the same whatever `FB`
holds, written or not (and, in the model's form of a read, assumption log 3, draws nothing). -/
def Obligations.ShortReadDependsOnNoByte : Prop :=
  ∀ (s t s' t' : State) (efam ecode : Byte) (n : BitVec 4), n.toNat < 8 →
    exec (.frmDecode efam ecode n) s = .next s' → exec (.frmDecode efam ecode n) t = .next t' →
    s'.responses.head? = t'.responses.head? ∧ s'.draws = s.draws

/-- 42_frame_transaction.md R74: all 2^32 serial numbers are results. The reply frame that carries `v`, with its checksum
and any terminator, is loaded and decoded to OK, `v`, whatever the buffer held before. -/
def Obligations.EverySerialNumberIsDecoded : Prop :=
  ∀ (s : State) (v : Data) (cc tt : Byte),
    cc = checksum [0x20#8, 0x02#8, v.extractLsb' 24 8, v.extractLsb' 16 8, v.extractLsb' 8 8, v.extractLsb' 0 8] →
    ∃ t, execAll [.fbLoad [0x20#8, 0x02#8, v.extractLsb' 24 8, v.extractLsb' 16 8, v.extractLsb' 8 8,
        v.extractLsb' 0 8, cc, tt], .rspGetsn 8#4] s = .next t ∧
      t.responses.head? = some (0x00#8 ++ v) ∧ t.acc = s.acc

/-- 30_encoding.md R32, 42_frame_transaction.md R76 steps 1 to 3. GETSN.REQ (as the model reads a wire-frame row,
assumption log 8): the request stands in `FB`, its eight bytes are answered and handed to the transport as one frame,
`ACC` is unchanged. The count of draws is the model's (assumption log 3). -/
def Obligations.GetsnReqSendsTheRequest : Prop :=
  ∀ s : State, exec .getsnReq s = .next { s with
    fb := ⟨0x20#8, 0x02#8, 0#8, 0#8, 0#8, 0#8, 0x50#8, 0xFF#8⟩
    written := ⟨true, true, true, true, true, true, true, true⟩
    draws := s.draws + 8
    responses := [0x00000000FF#40, 0x0000000050#40, 0#40, 0#40, 0#40, 0#40, 0x0000000002#40, 0x0000000020#40,
      0x0000000050#40] ++ s.responses
    sent := ⟨0x20#8, 0x02#8, 0#8, 0#8, 0#8, 0#8, 0x50#8, 0xFF#8⟩ :: s.sent }

/-- 30_encoding.md R32, 42_frame_transaction.md R76 steps 5 to 7. GETSN.RPL (as the model reads a wire-frame row,
assumption logs 8 and 9): the reply stands in `FB`; the last response is OK with the serial number where the checksum
byte fits, CHECKSUM with both checksums where it does not; the terminator does not matter; `ACC` is unchanged. The count
of draws is the model's (assumption log 3). -/
def Obligations.GetsnRplDecodesTheReply : Prop :=
  ∀ (s : State) (s3 s2 s1 s0 cc tt crc : Byte), crc = checksum [0x20#8, 0x02#8, s3, s2, s1, s0] →
    exec (.getsnRpl (s3 ++ s2 ++ s1 ++ s0) cc tt) s = .next { s with
      fb := ⟨0x20#8, 0x02#8, s3, s2, s1, s0, cc, tt⟩
      written := ⟨true, true, true, true, true, true, true, true⟩
      draws := s.draws + 1
      responses := (if cc = crc then (0x00#8 ++ s3 ++ s2 ++ s1 ++ s0) else (0x03#8 ++ 0x0000#16 ++ crc ++ cc)) ::
        (List.replicate 8 0#40 ++ s.responses) }

/-! ## The transaction -/

/-- 42_frame_transaction.md R76 step 4, R87 (c), 60_exceptions.md R84. A write of fewer than 8 bytes ends the transaction
with the requested and the actual count, whatever a read would have answered; the block still holds the request. -/
def Obligations.PartialWriteEndsTheTransaction : Prop :=
  ∀ (s : State) (w : Fin 9) (rd : ReadAnswer), w.val < 8 → ∃ t,
    getSerialNumber (.count w) rd s = .next (.partialWrite 8 w.val, t) ∧
    holdsFrame t ⟨0x20#8, 0x02#8, 0#8, 0#8, 0#8, 0#8, 0x50#8, 0xFF#8⟩ ∧ t.acc = s.acc

/-- 42_frame_transaction.md R76, R79. A transaction whose write moved all 8 bytes answers for every count and every
bytes the transport can return: short read, unexpected reply, checksum error, or the serial number; the request has gone
out as one frame of 8 bytes (recorded in `sent`, assumption log 8); and where fewer than 8 came back, the other bytes of `FB` still hold the request. -/
def Obligations.TransactionAnswersForEveryTransport : Prop :=
  ∀ (s : State) (n : Fin 9) (buf : Frame), ∃ t rw,
    getSerialNumber (.count 8) (.count n buf) s = .next (.response (some rw), t) ∧
    rw = (if n.val < 8 then 0x01#8 ++ 0x0000#16 ++ 0x08#8 ++ BitVec.ofNat 8 n.val
      else if buf.b0 ≠ 0x20#8 ∨ buf.b1 ≠ 0x02#8 then 0x02#8 ++ 0x20#8 ++ 0x02#8 ++ buf.b0 ++ buf.b1
      else if frameCrc buf ≠ buf.b6 then 0x03#8 ++ 0x0000#16 ++ frameCrc buf ++ buf.b6
      else 0x00#8 ++ buf.b2 ++ buf.b3 ++ buf.b4 ++ buf.b5) ∧
    (∀ k : FbIndex, holds t k (if k.toNat < n.val then octetGet buf k
      else octetGet ⟨0x20#8, 0x02#8, 0#8, 0#8, 0#8, 0#8, 0x50#8, 0xFF#8⟩ k)) ∧
    t.acc = s.acc ∧
    t.sent = ⟨0x20#8, 0x02#8, 0#8, 0#8, 0#8, 0#8, 0x50#8, 0xFF#8⟩ :: s.sent

/-- 42_frame_transaction.md R76: the procedure is the command words it lists. Presenting REQ.GETSN, FB.DUMP, one FB.WR
for each byte received and RSP.GETSN n leaves the block as the procedure leaves it, with the same responses and the same
count of draws (the model's, assumption log 3; the frame handed to the transport is the host's). -/
def Obligations.TransactionIsItsCommandWords : Prop :=
  ∀ (s : State) (rest : List Stimulus) (n : Fin 9) (buf : Frame), ∃ t u r,
    getSerialNumber (.count 8) (.count n buf) s = .next (r, t) ∧
    Sys2Proof.core.run (10 + n.val)
      { s with pending := encode .reqGetsn ++ encode .fbDump ++
          (if n.val = 0 then [] else encode (.fbLoad ((octetList buf).take n.val))) ++
          encode (.rspGetsn (BitVec.ofNat 4 n.val)) ++ rest } = .next u ∧
    u.acc = t.acc ∧ u.fb = t.fb ∧ u.written = t.written ∧ u.draws = t.draws ∧ u.responses = t.responses ∧
    u.pending = rest ∧ r = .response u.responses.head?

/-! ## The stream of stimuli as a parameter -/

/-- 10_state.md R19 (b), 00_scope.md R5. The stream is a parameter of the step and no state of the block: the block's
step on a presented item depends on the item and the block's state alone, whatever was answered or sent before and
whatever comes after; and the step of the interface, which finds the item at the head of `pending` (assumption log 1), is
that step, its answers put in front of the earlier ones. -/
def Obligations.StepTakesTheStimulusAsAParameter : Prop :=
  ∀ (p : Stimulus) (b : Block), ∃ r : Reaction, stepOn p b = .next r ∧
    ∀ (rest : List Stimulus) (answered : List RespWord) (sent : List Frame),
      step { toBlock := b, pending := p :: rest, responses := answered, sent := sent } =
        .next { toBlock := r.block, pending := rest, responses := r.responses ++ answered, sent := r.sent ++ sent }

/-- 10_state.md R14, R19 (b), 20_memory.md R27 (a). A run is defined for every stream, with the stream as its parameter
and no state but the block's; and running the machine of the interface on a list that begins with the stream is that run
(the list in the state is the model's, assumption log 1). -/
def Obligations.EveryStreamRunsAsAParameter : Prop :=
  ∀ (ps : List Stimulus) (b : Block), ∃ r : Reaction, runOn ps b = .next r ∧
    ∀ (rest : List Stimulus) (answered : List RespWord) (sent : List Frame),
      Sys2Proof.core.run ps.length { toBlock := b, pending := ps ++ rest, responses := answered, sent := sent } =
        .next { toBlock := r.block, pending := rest, responses := r.responses ++ answered, sent := r.sent ++ sent }
end

