-- ==== Sys2Proof/Laws/State.lean ====
section
/-! SUPPORT. One lemma per field per update of the state, true by rfl, so that no later proof unfolds a record update. -/

namespace Sys2Proof.Machine

/-! ### State.respond -/

@[simp] theorem State.respond_acc (st : Status) (d : Data) (s : State) : (s.respond st d).acc = s.acc := rfl
@[simp] theorem State.respond_fb (st : Status) (d : Data) (s : State) : (s.respond st d).fb = s.fb := rfl
@[simp] theorem State.respond_written (st : Status) (d : Data) (s : State) : (s.respond st d).written = s.written := rfl
@[simp] theorem State.respond_draws (st : Status) (d : Data) (s : State) : (s.respond st d).draws = s.draws := rfl
@[simp] theorem State.respond_pending (st : Status) (d : Data) (s : State) : (s.respond st d).pending = s.pending := rfl
@[simp] theorem State.respond_responses (st : Status) (d : Data) (s : State) : (s.respond st d).responses = resp st d :: s.responses := rfl
@[simp] theorem State.respond_sent (st : Status) (d : Data) (s : State) : (s.respond st d).sent = s.sent := rfl

/-! ### State.deliverError -/

@[simp] theorem State.deliverError_acc (st : Status) (d : Data) (s : State) : (s.deliverError st d).acc = s.acc := rfl
@[simp] theorem State.deliverError_fb (st : Status) (d : Data) (s : State) : (s.deliverError st d).fb = s.fb := rfl
@[simp] theorem State.deliverError_written (st : Status) (d : Data) (s : State) : (s.deliverError st d).written = s.written := rfl
@[simp] theorem State.deliverError_draws (st : Status) (d : Data) (s : State) : (s.deliverError st d).draws = s.draws := rfl
@[simp] theorem State.deliverError_pending (st : Status) (d : Data) (s : State) : (s.deliverError st d).pending = s.pending := rfl
@[simp] theorem State.deliverError_responses (st : Status) (d : Data) (s : State) : (s.deliverError st d).responses = resp st d :: s.responses := rfl
@[simp] theorem State.deliverError_sent (st : Status) (d : Data) (s : State) : (s.deliverError st d).sent = s.sent := rfl

/-! ### State.illegalCommand -/

@[simp] theorem State.illegalCommand_acc (s : State) : (s.illegalCommand).acc = s.acc := rfl
@[simp] theorem State.illegalCommand_fb (s : State) : (s.illegalCommand).fb = s.fb := rfl
@[simp] theorem State.illegalCommand_written (s : State) : (s.illegalCommand).written = s.written := rfl
@[simp] theorem State.illegalCommand_draws (s : State) : (s.illegalCommand).draws = s.draws := rfl
@[simp] theorem State.illegalCommand_pending (s : State) : (s.illegalCommand).pending = s.pending := rfl
@[simp] theorem State.illegalCommand_responses (s : State) : (s.illegalCommand).responses = resp .illegalCmd 0#32 :: s.responses := rfl
@[simp] theorem State.illegalCommand_sent (s : State) : (s.illegalCommand).sent = s.sent := rfl

/-! ### State.drawn -/

@[simp] theorem State.drawn_acc (s : State) : (s.drawn).acc = s.acc := rfl
@[simp] theorem State.drawn_fb (s : State) : (s.drawn).fb = s.fb := rfl
@[simp] theorem State.drawn_written (s : State) : (s.drawn).written = s.written := rfl
@[simp] theorem State.drawn_draws (s : State) : (s.drawn).draws = s.draws + 1 := rfl
@[simp] theorem State.drawn_pending (s : State) : (s.drawn).pending = s.pending := rfl
@[simp] theorem State.drawn_responses (s : State) : (s.drawn).responses = s.responses := rfl
@[simp] theorem State.drawn_sent (s : State) : (s.drawn).sent = s.sent := rfl

/-! ### State.writeFb -/

@[simp] theorem State.writeFb_acc (i : FbIndex) (b : Byte) (s : State) : (s.writeFb i b).acc = s.acc := rfl
@[simp] theorem State.writeFb_fb (i : FbIndex) (b : Byte) (s : State) : (s.writeFb i b).fb = octetSet s.fb i b := rfl
@[simp] theorem State.writeFb_written (i : FbIndex) (b : Byte) (s : State) : (s.writeFb i b).written = octetSet s.written i true := rfl
@[simp] theorem State.writeFb_draws (i : FbIndex) (b : Byte) (s : State) : (s.writeFb i b).draws = s.draws := rfl
@[simp] theorem State.writeFb_pending (i : FbIndex) (b : Byte) (s : State) : (s.writeFb i b).pending = s.pending := rfl
@[simp] theorem State.writeFb_responses (i : FbIndex) (b : Byte) (s : State) : (s.writeFb i b).responses = s.responses := rfl
@[simp] theorem State.writeFb_sent (i : FbIndex) (b : Byte) (s : State) : (s.writeFb i b).sent = s.sent := rfl

/-! ### State.writeFrame -/

@[simp] theorem State.writeFrame_acc (F : Frame) (s : State) : (s.writeFrame F).acc = s.acc := rfl
@[simp] theorem State.writeFrame_fb (F : Frame) (s : State) : (s.writeFrame F).fb = F := rfl
@[simp] theorem State.writeFrame_written (F : Frame) (s : State) : (s.writeFrame F).written = octetFill true := rfl
@[simp] theorem State.writeFrame_draws (F : Frame) (s : State) : (s.writeFrame F).draws = s.draws := rfl
@[simp] theorem State.writeFrame_pending (F : Frame) (s : State) : (s.writeFrame F).pending = s.pending := rfl
@[simp] theorem State.writeFrame_responses (F : Frame) (s : State) : (s.writeFrame F).responses = s.responses := rfl
@[simp] theorem State.writeFrame_sent (F : Frame) (s : State) : (s.writeFrame F).sent = s.sent := rfl

/-! ### State.applyReset -/

@[simp] theorem State.applyReset_acc (s : State) : (s.applyReset).acc = Config.init := rfl
@[simp] theorem State.applyReset_fb (s : State) : (s.applyReset).fb = octetFill 0#8 := rfl
@[simp] theorem State.applyReset_written (s : State) : (s.applyReset).written = octetFill false := rfl
@[simp] theorem State.applyReset_draws (s : State) : (s.applyReset).draws = s.draws := rfl
@[simp] theorem State.applyReset_pending (s : State) : (s.applyReset).pending = s.pending := rfl
@[simp] theorem State.applyReset_responses (s : State) : (s.applyReset).responses = s.responses := rfl
@[simp] theorem State.applyReset_sent (s : State) : (s.applyReset).sent = s.sent := rfl

/-! ### The block's state as a whole, under each update -/

@[simp] theorem State.respond_toBlock (st : Status) (d : Data) (s : State) : (s.respond st d).toBlock = s.toBlock := rfl
@[simp] theorem State.deliverError_toBlock (st : Status) (d : Data) (s : State) : (s.deliverError st d).toBlock = s.toBlock := rfl
@[simp] theorem State.illegalCommand_toBlock (s : State) : s.illegalCommand.toBlock = s.toBlock := rfl
@[simp] theorem State.drawn_toBlock (s : State) : s.drawn.toBlock = { s.toBlock with draws := s.draws + 1 } := rfl
@[simp] theorem State.writeFb_toBlock (i : FbIndex) (b : Byte) (s : State) :
    (s.writeFb i b).toBlock = { s.toBlock with fb := octetSet s.fb i b, written := octetSet s.written i true } := rfl
@[simp] theorem State.writeFrame_toBlock (F : Frame) (s : State) :
    (s.writeFrame F).toBlock = { s.toBlock with fb := F, written := octetFill true } := rfl
@[simp] theorem State.applyReset_toBlock (s : State) :
    s.applyReset.toBlock = { s.toBlock with acc := Config.init, fb := octetFill 0#8, written := octetFill false } := rfl

/-! ### What a read of the frame buffer finds after an update that leaves `FB`, its marks and the draws alone -/

@[simp] theorem State.respond_fbByte (st : Status) (d : Data) (s : State) (i : FbIndex) :
    (s.respond st d).fbByte i = s.fbByte i := rfl
@[simp] theorem State.respond_fbFrame (st : Status) (d : Data) (s : State) : (s.respond st d).fbFrame = s.fbFrame := rfl
@[simp] theorem State.deliverError_fbByte (st : Status) (d : Data) (s : State) (i : FbIndex) :
    (s.deliverError st d).fbByte i = s.fbByte i := rfl

end Sys2Proof.Machine
end

