-- ==== Sys2Proof/Laws/Ops.lean ====
section
/-! SUPPORT. For each shared operation, what it can do, said once: indexing, reading and writing the frame buffer, the
checksum loop, loading and dumping a frame, and the three ways FRM.DECODE answers. Proofs cite these and do not unfold
the operations. -/

namespace Sys2Proof.Machine

/-! ## Indexing -/

/-- A statement about every index is its eight instances. -/
theorem forall_fbIndex {p : FbIndex → Prop} :
    (∀ i, p i) ↔ p 0#3 ∧ p 1#3 ∧ p 2#3 ∧ p 3#3 ∧ p 4#3 ∧ p 5#3 ∧ p 6#3 ∧ p 7#3 := by
  constructor
  · intro h; exact ⟨h _, h _, h _, h _, h _, h _, h _, h _⟩
  · rintro ⟨h0, h1, h2, h3, h4, h5, h6, h7⟩ i
    have : i = 0#3 ∨ i = 1#3 ∨ i = 2#3 ∨ i = 3#3 ∨ i = 4#3 ∨ i = 5#3 ∨ i = 6#3 ∨ i = 7#3 := by
      revert i; decide
    rcases this with h | h | h | h | h | h | h | h <;> subst h <;> assumption

@[simp] theorem octetGet_zero {α : Type} (o : Octet α) : octetGet o 0#3 = o.b0 := rfl
@[simp] theorem octetGet_one {α : Type} (o : Octet α) : octetGet o 1#3 = o.b1 := rfl
@[simp] theorem octetGet_two {α : Type} (o : Octet α) : octetGet o 2#3 = o.b2 := rfl
@[simp] theorem octetGet_three {α : Type} (o : Octet α) : octetGet o 3#3 = o.b3 := rfl
@[simp] theorem octetGet_four {α : Type} (o : Octet α) : octetGet o 4#3 = o.b4 := rfl
@[simp] theorem octetGet_five {α : Type} (o : Octet α) : octetGet o 5#3 = o.b5 := rfl
@[simp] theorem octetGet_six {α : Type} (o : Octet α) : octetGet o 6#3 = o.b6 := rfl
@[simp] theorem octetGet_seven {α : Type} (o : Octet α) : octetGet o 7#3 = o.b7 := rfl

@[simp] theorem octetSet_zero {α : Type} (o : Octet α) (v : α) : octetSet o 0#3 v = { o with b0 := v } := rfl
@[simp] theorem octetSet_one {α : Type} (o : Octet α) (v : α) : octetSet o 1#3 v = { o with b1 := v } := rfl
@[simp] theorem octetSet_two {α : Type} (o : Octet α) (v : α) : octetSet o 2#3 v = { o with b2 := v } := rfl
@[simp] theorem octetSet_three {α : Type} (o : Octet α) (v : α) : octetSet o 3#3 v = { o with b3 := v } := rfl
@[simp] theorem octetSet_four {α : Type} (o : Octet α) (v : α) : octetSet o 4#3 v = { o with b4 := v } := rfl
@[simp] theorem octetSet_five {α : Type} (o : Octet α) (v : α) : octetSet o 5#3 v = { o with b5 := v } := rfl
@[simp] theorem octetSet_six {α : Type} (o : Octet α) (v : α) : octetSet o 6#3 v = { o with b6 := v } := rfl
@[simp] theorem octetSet_seven {α : Type} (o : Octet α) (v : α) : octetSet o 7#3 v = { o with b7 := v } := rfl
@[simp] theorem octetFill_b0 {α : Type} (v : α) : (octetFill v).b0 = v := rfl
@[simp] theorem octetFill_b1 {α : Type} (v : α) : (octetFill v).b1 = v := rfl
@[simp] theorem octetFill_b2 {α : Type} (v : α) : (octetFill v).b2 = v := rfl
@[simp] theorem octetFill_b3 {α : Type} (v : α) : (octetFill v).b3 = v := rfl
@[simp] theorem octetFill_b4 {α : Type} (v : α) : (octetFill v).b4 = v := rfl
@[simp] theorem octetFill_b5 {α : Type} (v : α) : (octetFill v).b5 = v := rfl
@[simp] theorem octetFill_b6 {α : Type} (v : α) : (octetFill v).b6 = v := rfl
@[simp] theorem octetFill_b7 {α : Type} (v : α) : (octetFill v).b7 = v := rfl

/-- Read after write at the same index. -/
@[simp] theorem octetGet_set_same {α : Type} (o : Octet α) (i : FbIndex) (v : α) : octetGet (octetSet o i v) i = v := by
  revert i; rw [forall_fbIndex]; exact ⟨rfl, rfl, rfl, rfl, rfl, rfl, rfl, rfl⟩

/-- A write leaves every other index alone. -/
theorem octetGet_set_other {α : Type} (o : Octet α) {i j : FbIndex} (v : α) (h : j ≠ i) :
    octetGet (octetSet o i v) j = octetGet o j := by
  revert i j; simp only [forall_fbIndex]
  refine ⟨?_, ?_, ?_, ?_, ?_, ?_, ?_, ?_⟩ <;> refine ⟨?_, ?_, ?_, ?_, ?_, ?_, ?_, ?_⟩ <;>
    first | exact fun h => absurd rfl h | exact fun _ => rfl

@[simp] theorem octetGet_fill {α : Type} (v : α) (i : FbIndex) : octetGet (octetFill v) i = v := by
  revert i; rw [forall_fbIndex]; exact ⟨rfl, rfl, rfl, rfl, rfl, rfl, rfl, rfl⟩

/-- Eight items are equal when every index finds the same. -/
theorem octet_ext {α : Type} {o p : Octet α} (h : ∀ i, octetGet o i = octetGet p i) : o = p := by
  rw [forall_fbIndex] at h
  obtain ⟨h0, h1, h2, h3, h4, h5, h6, h7⟩ := h
  cases o; cases p; simp_all

/-! ## Reading and writing the frame buffer -/

/-- A byte written since reset reads as what was written (20_memory.md R27 (b)). -/
theorem State.fbByte_of_written {s : State} {i : FbIndex} (h : octetGet s.written i = true) :
    s.fbByte i = octetGet s.fb i := by simp [State.fbByte, h]

/-- A never-written byte reads as a free value (93_implementation_defined.md U2). -/
theorem State.fbByte_of_unwritten {s : State} {i : FbIndex} (h : octetGet s.written i = false) :
    s.fbByte i = Config.freeByte s.draws i := by simp [State.fbByte, h]

@[simp] theorem State.writeFb_fbByte_same (i : FbIndex) (b : Byte) (s : State) : (s.writeFb i b).fbByte i = b := by
  simp [State.fbByte]

theorem State.writeFb_fbByte_other {i j : FbIndex} (b : Byte) (s : State) (h : j ≠ i) :
    (s.writeFb i b).fbByte j = s.fbByte j := by simp [State.fbByte, octetGet_set_other _ _ h]

@[simp] theorem State.writeFrame_fbFrame (F : Frame) (s : State) : (s.writeFrame F).fbFrame = F := by
  simp [State.fbFrame, State.fbByte]

/-- Where every byte has been written, an operation finds the stored frame. -/
theorem State.fbFrame_of_written {s : State} (h : s.written = octetFill true) : s.fbFrame = s.fb := by
  simp [State.fbFrame, State.fbByte, h]

/-! ## The checksum -/

@[simp] theorem absorb_nil (a : Byte) : absorb a [] = a := rfl
@[simp] theorem absorb_cons (a b : Byte) (bs : List Byte) : absorb a (b :: bs) = absorb (crc8Step a b) bs := rfl

/-- The checksum of a frame reads bytes 0 to 5 only (41_frame_codec.md R62). -/
theorem frameCrc_congr {F G : Frame} (h0 : F.b0 = G.b0) (h1 : F.b1 = G.b1) (h2 : F.b2 = G.b2) (h3 : F.b3 = G.b3)
    (h4 : F.b4 = G.b4) (h5 : F.b5 = G.b5) : frameCrc F = frameCrc G := by
  simp [frameCrc, h0, h1, h2, h3, h4, h5]

@[simp] theorem buildFrame_eq (fam code p0 p1 p2 p3 : Byte) :
    buildFrame fam code p0 p1 p2 p3 =
      ⟨fam, code, p0, p1, p2, p3, checksum [fam, code, p0, p1, p2, p3], Config.terminator⟩ := rfl

/-! ## The loops of the pseudo-instructions -/

/-- What the state is after `CRC.UPD b0; ..; CRC.UPD bk-1`: `ACC` has absorbed the bytes, each response is the running
value, nothing else changes. -/
theorem State.crcUpdAll_spec (bs : List Byte) (s : State) :
    ∃ rs, rs.length = bs.length ∧
      s.crcUpdAll bs = { s with acc := absorb s.acc bs, responses := rs ++ s.responses } := by
  induction bs generalizing s with
  | nil => exact ⟨[], rfl, rfl⟩
  | cons b bs ih =>
    obtain ⟨rs, hl, h⟩ := ih (s.crcUpd b)
    refine ⟨rs ++ [resp .ok (zext32 (crc8Step s.acc b))], by simp [hl], ?_⟩
    simp only [State.crcUpdAll, h]
    simp [State.crcUpd, State.respond]

/-- What `FB.WR k, b0; FB.WR k+1, b1; ..` leaves alone, and that it answers one zero response for each byte. -/
theorem State.fbLoadFrom_spec (k : Nat) (bs : List Byte) (s : State) :
    ∃ fb written, s.fbLoadFrom k bs =
      { s with fb := fb, written := written, responses := List.replicate bs.length (resp .ok 0#32) ++ s.responses } := by
  induction bs generalizing k s with
  | nil => exact ⟨s.fb, s.written, rfl⟩
  | cons b bs ih =>
    obtain ⟨fb, w, h⟩ := ih (k + 1) (s.fbWr (BitVec.ofNat 3 k) b)
    refine ⟨fb, w, ?_⟩
    simp only [State.fbLoadFrom, h]
    simp [State.fbWr, State.respond, State.writeFb, List.replicate_succ']

/-- Loading all eight bytes leaves the frame, every byte written (30_encoding.md R47). -/
theorem State.fbLoadFrom_frame (F : Frame) (s : State) :
    s.fbLoadFrom 0 (octetList F) =
      { s with
        fb := F, written := octetFill true, responses := List.replicate 8 (resp .ok 0#32) ++ s.responses } := by
  simp [octetList, State.fbLoadFrom, State.fbWr, State.respond, State.writeFb, octetFill, List.replicate]

/-- Reading changes the count of draws and the responses only. -/
theorem State.fbRdAll_spec (is : List FbIndex) (s : State) :
    ∃ rs, rs.length = is.length ∧
      s.fbRdAll is = { s with draws := s.draws + is.length, responses := rs ++ s.responses } := by
  induction is generalizing s with
  | nil => exact ⟨[], rfl, rfl⟩
  | cons i is ih =>
    obtain ⟨rs, hl, h⟩ := ih (s.fbRd i)
    refine ⟨rs ++ [resp .ok (zext32 (s.fbByte i))], by simp [hl], ?_⟩
    simp only [State.fbRdAll, h]
    simp [State.fbRd, State.respond, State.drawn]; omega

/-- The eight responses of FB.DUMP, newest first (30_encoding.md R47). -/
theorem State.fbDump_eq (s : State) :
    s.fbDump = { s with
      draws := s.draws + 8
      responses :=
        resp .ok (zext32 (s.dumpedByte 7#3)) :: resp .ok (zext32 (s.dumpedByte 6#3)) ::
        resp .ok (zext32 (s.dumpedByte 5#3)) :: resp .ok (zext32 (s.dumpedByte 4#3)) ::
        resp .ok (zext32 (s.dumpedByte 3#3)) :: resp .ok (zext32 (s.dumpedByte 2#3)) ::
        resp .ok (zext32 (s.dumpedByte 1#3)) :: resp .ok (zext32 (s.dumpedByte 0#3)) :: s.responses } := by
  simp [State.fbDump, fbIndices, State.fbRdAll, State.fbRd, State.respond, State.drawn, State.dumpedByte,
    State.fbByte]
  exact ⟨rfl, rfl, rfl, rfl, rfl, rfl, rfl, rfl⟩

/-- Where every byte has been written, the dump is the stored frame. -/
theorem State.dumpedFrame_of_written {s : State} (h : s.written = octetFill true) : s.dumpedFrame = s.fb := by
  simp [State.dumpedFrame, State.dumpedByte, State.fbByte, h]

/-! ## FRM.DECODE -/

/-- Everything FRM.DECODE can do: it writes no register, draws at most once, and returns one response. -/
theorem State.frmDecode_spec (efam ecode : Byte) (n : BitVec 4) (s : State) :
    ∃ rw d, (d = s.draws ∨ d = s.draws + 1) ∧
      s.frmDecode efam ecode n = { s with draws := d, responses := rw :: s.responses } := by
  unfold State.frmDecode
  split
  · cases decodeReply s.fbFrame n efam ecode with
    | value v => exact ⟨_, _, .inr rfl, rfl⟩
    | shortRead r a => exact ⟨_, _, .inl rfl, rfl⟩
    | unexpectedReply a b c d => exact ⟨_, _, .inr rfl, rfl⟩
    | checksum e a => exact ⟨_, _, .inr rfl, rfl⟩
  · exact ⟨_, _, .inl rfl, rfl⟩

end Sys2Proof.Machine
end

