-- ==== Sys2Proof/Laws/PerInstr.lean ====
section
/-! SUPPORT. Facts stated of every instruction as syntax, one lemma for each constructor. -/

namespace Sys2Proof.Laws

/-- FB.LOAD presents one command word for each byte (30_encoding.md R47). -/
theorem loadWords_length (k : Nat) (bs : List Byte) : (loadWords k bs).length = bs.length := by
  induction bs generalizing k with
  | nil => rfl
  | cons b bs ih => simp [loadWords, ih]

/-- A well-formed instruction is presented as exactly the number of items 30_encoding.md R47 gives it, and at least
one. -/
def EncodingLength.Statement (i : Instr) : Prop :=
  i.wellFormed = true → (encode i).length = i.wordCount ∧ 1 ≤ (encode i).length

theorem EncodingLength.crcInit : EncodingLength.Statement .crcInit := fun _ => ⟨rfl, by decide⟩
theorem EncodingLength.crcUpd (b : Byte) : EncodingLength.Statement (.crcUpd b) := fun _ => ⟨rfl, Nat.le_refl 1⟩
theorem EncodingLength.crcRd : EncodingLength.Statement .crcRd := fun _ => ⟨rfl, by decide⟩
theorem EncodingLength.fbWr (i : FbIndex) (b : Byte) : EncodingLength.Statement (.fbWr i b) :=
  fun _ => ⟨rfl, Nat.le_refl 1⟩
theorem EncodingLength.fbRd (i : FbIndex) : EncodingLength.Statement (.fbRd i) := fun _ => ⟨rfl, Nat.le_refl 1⟩
theorem EncodingLength.frmStamp : EncodingLength.Statement .frmStamp := fun _ => ⟨rfl, by decide⟩
theorem EncodingLength.frmVerify : EncodingLength.Statement .frmVerify := fun _ => ⟨rfl, by decide⟩
theorem EncodingLength.frmBuild (fam code p0 p1 p2 p3 : Byte) :
    EncodingLength.Statement (.frmBuild fam code p0 p1 p2 p3) := fun _ => ⟨rfl, Nat.le_refl 1⟩
theorem EncodingLength.frmDecode (efam ecode : Byte) (n : BitVec 4) :
    EncodingLength.Statement (.frmDecode efam ecode n) := fun _ => ⟨rfl, Nat.le_refl 1⟩
theorem EncodingLength.reqGetsn : EncodingLength.Statement .reqGetsn := fun _ => ⟨rfl, by decide⟩
theorem EncodingLength.rspGetsn (n : BitVec 4) : EncodingLength.Statement (.rspGetsn n) :=
  fun _ => ⟨rfl, Nat.le_refl 1⟩
theorem EncodingLength.checksumOf (bs : List Byte) : EncodingLength.Statement (.checksumOf bs) :=
  fun _ => by simp [encode, Instr.wordCount]
theorem EncodingLength.fbLoad (bs : List Byte) : EncodingLength.Statement (.fbLoad bs) := fun h => by
  have h' := (of_decide_eq_true h).1
  simpa [encode, Instr.wordCount, loadWords_length] using h'
theorem EncodingLength.fbDump : EncodingLength.Statement .fbDump := fun _ => ⟨rfl, by decide⟩
theorem EncodingLength.getsnReq : EncodingLength.Statement .getsnReq := fun _ => ⟨rfl, by decide⟩
theorem EncodingLength.getsnRpl (serial : Data) (cc tt : Byte) :
    EncodingLength.Statement (.getsnRpl serial cc tt) := fun _ => ⟨rfl, Nat.le_refl 1⟩

end Sys2Proof.Laws
end

