-- ==== Sys2Proof/Laws/Stream.lean ====
section
/-! SUPPORT. The equations of presenting an item and of a run over a stream. -/

namespace Sys2Proof.Machine

/-- An item that decodes is executed. -/
theorem present_of_ok {p : Stimulus} {i : Instr} (h : p.decode = .ok i) (s : State) : present p s = exec i s := by
  simp [present, h]

/-- An item that is no instruction is answered by `presentOther`. -/
theorem present_of_error {p : Stimulus} {e : DecodeError} (h : p.decode = .error e) (s : State) :
    present p s = .next (s.presentOther p) := by
  simp [present, h]

/-- The step with an item at the head of the list presents that item. -/
@[simp] theorem step_pending_cons (p : Stimulus) (rest : List Stimulus) (s : State) :
    step { s with pending := p :: rest } = present p { s with pending := rest } := rfl

@[simp] theorem runOn_nil (b : Block) : runOn [] b = .next ⟨b, [], []⟩ := rfl

/-- A run whose first step and whose rest answer is their reactions put together, the later answers in front. -/
theorem runOn_cons_of_next {p : Stimulus} {ps : List Stimulus} {b : Block} {r q : Reaction} (h : stepOn p b = .next r)
    (h' : runOn ps r.block = .next q) :
    runOn (p :: ps) b = .next ⟨q.block, q.responses ++ r.responses, q.sent ++ r.sent⟩ := by
  simp [runOn, h, h']

end Sys2Proof.Machine
end

