-- ==== Sys2Proof/Tests/Slice0.lean ====
section
/-! SUPPORT. The model's own tests: ill-formed terms that WellFormed refuses, words written out from the spec's
encodings, one or two vectors of 95_test_vectors.md for each instruction, and for each statement with hypotheses a
concrete case that meets them together. -/

namespace Sys2Proof.Tests

open Sys2Proof.Machine Sys2Proof.Safety

/-! ## Helpers -/

/-- A state in which every byte of `FB` has been written: `FB` = `F`, `ACC` = `a`. -/
def holding (a : Byte) (F : Frame) : State := { State.reset with acc := a, fb := F, written := octetFill true }

/-- The frame of eight bytes. -/
def frame (a b c d e f g h : Byte) : Frame := ⟨a, b, c, d, e, f, g, h⟩

/-- The state after an instruction (the given one where there is none). -/
def after (i : Instr) (s : State) : State :=
  match exec i s with
  | .next t => t
  | .fault _ => s
  | .refused _ => s

/-- The last response after an instruction. -/
def answer (i : Instr) (s : State) : Option RespWord := (after i s).responses.head?

/-- The last response and the state's `ACC` after one step on a presented word. -/
def stepAnswer (cw : CmdWord) (s : State) : Option RespWord × Byte :=
  match step { s with pending := [.command cw] } with
  | .next t => (t.responses.head?, t.acc)
  | .fault _ => (none, s.acc)
  | .refused _ => (none, s.acc)

/-- The reply of 95_test_vectors.md V7, serial number 42. -/
def reply42 : Frame := frame 0x20#8 0x02#8 0#8 0#8 0#8 0x2A#8 0x86#8 0xFF#8

/-! ## WellFormed: an ill-formed term for each check (30_encoding.md R39, R47) -/

theorem test_wellFormed_refuses_count_nine : (Instr.frmDecode 0x20#8 0x02#8 9#4).wellFormed = false := by decide
theorem test_wellFormed_refuses_pseudo_count_fifteen : (Instr.rspGetsn 15#4).wellFormed = false := by decide
theorem test_wellFormed_refuses_empty_load : (Instr.fbLoad []).wellFormed = false := by decide
theorem test_wellFormed_refuses_nine_bytes :
    (Instr.fbLoad [0#8, 0#8, 0#8, 0#8, 0#8, 0#8, 0#8, 0#8, 0#8]).wellFormed = false := by decide

/-! ## Decode: a word for every constructor, bit by bit from spec/opcode_table.json's "encoding" -/

theorem test_decode_crcInit :
    decode 0b00000001000000000000000000000000000000000000000000000000#56 = .ok .crcInit := by rfl
theorem test_decode_crcUpd : -- b = 10100101
    decode 0b00000010000000000000000000000000000000000000000010100101#56 = .ok (.crcUpd 0xA5#8) := by rfl
theorem test_decode_crcRd :
    decode 0b00000011000000000000000000000000000000000000000000000000#56 = .ok .crcRd := by rfl
theorem test_decode_fbWr : -- i = 110, b = 10000110
    decode 0b00000100000000000000000000000000000000000000011010000110#56 = .ok (.fbWr 6#3 0x86#8) := by rfl
theorem test_decode_fbRd : -- i = 101
    decode 0b00000101000000000000000000000000000000000000000000000101#56 = .ok (.fbRd 5#3) := by rfl
theorem test_decode_frmStamp :
    decode 0b00000110000000000000000000000000000000000000000000000000#56 = .ok .frmStamp := by rfl
theorem test_decode_frmVerify :
    decode 0b00000111000000000000000000000000000000000000000000000000#56 = .ok .frmVerify := by rfl
theorem test_decode_frmBuild : -- 20 02 DE AD BE EF
    decode 0b00001000001000000000001011011110101011011011111011101111#56 =
      .ok (.frmBuild 0x20#8 0x02#8 0xDE#8 0xAD#8 0xBE#8 0xEF#8) := by rfl
theorem test_decode_frmDecode : -- 21 02, n = 1000
    decode 0b00001001001000010000001000000000000000000000000000001000#56 = .ok (.frmDecode 0x21#8 0x02#8 8#4) := by rfl
/-- REQ.GETSN has no encoding of its own (30_encoding.md R47): its word is FRM.BUILD's. -/
theorem test_decode_reqGetsn : encode .reqGetsn = [.command 0x08200200000000#56] ∧
    decode 0x08200200000000#56 = .ok (.frmBuild 0x20#8 0x02#8 0#8 0#8 0#8 0#8) := ⟨rfl, rfl⟩
/-- RSP.GETSN has no encoding of its own (30_encoding.md R47): its word is FRM.DECODE's. -/
theorem test_decode_rspGetsn : encode (.rspGetsn 7#4) = [.command 0x09200200000007#56] ∧
    decode 0x09200200000007#56 = .ok (.frmDecode 0x20#8 0x02#8 7#4) := ⟨rfl, rfl⟩
theorem test_encode_checksumOf : encode (.checksumOf [0x01#8, 0x02#8]) =
    [.command 0x01000000000000#56, .command 0x02000000000001#56, .command 0x02000000000002#56,
     .command 0x03000000000000#56] := by rfl
/-- The first words of program P4 of 95_test_vectors.md. -/
theorem test_encode_fbLoad : encode (.fbLoad [0x20#8, 0x02#8, 0x2A#8]) =
    [.command 0x04000000000020#56, .command 0x04000000000102#56, .command 0x0400000000022A#56] := by rfl
theorem test_encode_fbDump : encode .fbDump =
    [.command 0x05000000000000#56, .command 0x05000000000001#56, .command 0x05000000000002#56,
     .command 0x05000000000003#56, .command 0x05000000000004#56, .command 0x05000000000005#56,
     .command 0x05000000000006#56, .command 0x05000000000007#56] := by rfl
theorem test_decode_getsnReq : decodeTableWord 64
    0b0010000000000010000000000000000000000000000000000101000011111111 = some .getsnReq := by rfl
/-- V8: family 21 is no GETSN.RPL (30_encoding.md R32). -/
theorem test_decode_other_family : decodeTableWord 64 0x21020000002AAFFF = none := by rfl
theorem test_decode_getsnRpl : -- serial 0000002A, checksum 86, terminator FF
    decodeTableWord 64 0b0010000000000010000000000000000000000000001010101000011011111111 =
      some (.getsnRpl 42#32 0x86#8 0xFF#8) := by rfl

/-- 95_test_vectors.md V17: the ten illegal words, each rejected by the name of what is wrong. -/
theorem test_decode_illegal_words :
    decode 0x00000000000000#56 = .error (.reservedOpcode 0x00#8) ∧
    decode 0x0A000000000000#56 = .error (.reservedOpcode 0x0A#8) ∧
    decode 0xFF000000000000#56 = .error (.reservedOpcode 0xFF#8) ∧
    decode 0x01000000000001#56 = .error (.mustBeZero 0x01#8) ∧
    decode 0x02000000000100#56 = .error (.mustBeZero 0x02#8) ∧
    decode 0x05000000000008#56 = .error (.mustBeZero 0x05#8) ∧
    decode 0x04000000000800#56 = .error (.mustBeZero 0x04#8) ∧
    decode 0x09200200000009#56 = .error (.reservedCount 9#4) ∧
    decode 0x0920020000000F#56 = .error (.reservedCount 15#4) ∧
    decode 0x09200200000018#56 = .error (.mustBeZero 0x09#8) :=
  ⟨rfl, rfl, rfl, rfl, rfl, rfl, rfl, rfl, rfl, rfl⟩

/-- 95_test_vectors.md P9, its last word: ILLEGAL_CMD, and `ACC` as it was. -/
theorem test_step_illegal_word : stepAnswer 0x09200200000018#56 (holding 0xFF#8 reply42) =
    (some 0xFF00000000#40, 0xFF#8) := by decide

set_option maxRecDepth 20000

/-! ## One or two vectors for each instruction (95_test_vectors.md) -/

/-- V12, first row. -/
theorem test_crcInit : answer .crcInit (holding 0x3C#8 reply42) = some 0x00000000FF#40 ∧
    (after .crcInit (holding 0x3C#8 reply42)).acc = 0xFF#8 := by decide
/-- V12: `ACC` = 13, byte 02. -/
theorem test_crcUpd : answer (.crcUpd 0x02#8) (holding 0x13#8 reply42) = some 0x0000000077#40 := by decide
/-- V12: the fixed point FD. -/
theorem test_crcUpd_fixed_point : (after (.crcUpd 0x00#8) (holding 0xFD#8 reply42)).acc = 0xFD#8 := by decide
/-- V12, last row: after reset. -/
theorem test_crcRd_after_reset : stepAnswer 0x03000000000000#56 State.reset = (some 0x00000000FF#40, 0xFF#8) := by
  decide
/-- V13, first row. -/
theorem test_fbWr : (after (.fbWr 5#3 0x2A#8) (holding 0#8 (frame 0x20#8 0x02#8 0#8 0#8 0#8 0#8 0x50#8 0xFF#8))).fb =
    frame 0x20#8 0x02#8 0#8 0#8 0#8 0x2A#8 0x50#8 0xFF#8 := by decide
/-- V13: zero-extended, not FFFFFFFF. -/
theorem test_fbRd : answer (.fbRd 7#3) (holding 0#8 reply42) = some 0x00000000FF#40 := by decide
/-- V14: all zero, byte 7 not touched. -/
theorem test_frmStamp : (after .frmStamp (holding 0#8 (octetFill 0#8))).fb =
    frame 0#8 0#8 0#8 0#8 0#8 0#8 0xAF#8 0#8 := by decide
/-- V14: all ones. -/
theorem test_frmStamp_ones : answer .frmStamp (holding 0#8 (octetFill 0xFF#8)) = some 0x00000000E7#40 := by decide
/-- V14: terminator ignored. -/
theorem test_frmVerify_true : answer .frmVerify (holding 0#8 { reply42 with b7 := 0#8 }) = some 0x0000000001#40 := by
  decide
/-- V14: recomputed 81. -/
theorem test_frmVerify_false : answer .frmVerify (holding 0#8 { reply42 with b5 := 0x2B#8 }) = some 0x0000000000#40 := by
  decide
/-- V15, second row, with `ACC` unchanged. -/
theorem test_frmBuild : (after (.frmBuild 0x20#8 0x02#8 0xDE#8 0xAD#8 0xBE#8 0xEF#8) State.reset).fb =
    frame 0x20#8 0x02#8 0xDE#8 0xAD#8 0xBE#8 0xEF#8 0x9A#8 0xFF#8 := by decide
/-- V16: echo check before checksum. -/
theorem test_frmDecode_echo_first : answer (.frmDecode 0x20#8 0x02#8 8#4)
    (holding 0#8 (frame 0x21#8 0x02#8 0#8 0#8 0#8 0x2A#8 0#8 0xFF#8)) = some 0x0220022102#40 := by decide
/-- V16: big-endian. -/
theorem test_frmDecode_big_endian : answer (.frmDecode 0x20#8 0x02#8 8#4)
    (holding 0#8 (frame 0x20#8 0x02#8 0x12#8 0x34#8 0x56#8 0x78#8 0x4C#8 0xFF#8)) = some 0x0012345678#40 := by decide
/-- V6. -/
theorem test_reqGetsn : (after .reqGetsn State.reset).fb = frame 0x20#8 0x02#8 0#8 0#8 0#8 0#8 0x50#8 0xFF#8 := by
  decide
/-- V9: expected 86, actual 87. -/
theorem test_rspGetsn_checksum : answer (.rspGetsn 8#4) (holding 0#8 { reply42 with b6 := 0x87#8 }) =
    some 0x0300008687#40 := by decide
/-- V16: short read, after reset, with nothing in `FB`. -/
theorem test_rspGetsn_short : stepAnswer 0x09200200000007#56 State.reset = (some 0x0100000807#40, 0xFF#8) := by decide
/-- V4: "123456789" gives FB and not F4. -/
theorem test_checksumOf_digits : answer (.checksumOf
    [0x31#8, 0x32#8, 0x33#8, 0x34#8, 0x35#8, 0x36#8, 0x37#8, 0x38#8, 0x39#8]) State.reset = some 0x00000000FB#40 := by
  decide
/-- V1: the empty sequence. -/
theorem test_checksumOf_empty : answer (.checksumOf []) (holding 0x3C#8 reply42) = some 0x00000000FF#40 := by decide
/-- P6, commands 1 to 5: five bytes loaded, the rest as it was. -/
theorem test_fbLoad : (after (.fbLoad [0x21#8, 0x03#8, 1#8, 2#8, 3#8]) (holding 0#8 reply42)).fb =
    frame 0x21#8 0x03#8 1#8 2#8 3#8 0x2A#8 0x86#8 0xFF#8 := by decide
/-- P2, commands 1 to 8, with another frame: byte 7 is answered last. -/
theorem test_fbDump : (after .fbDump (holding 0#8 reply42)).responses =
    [0x00000000FF#40, 0x0000000086#40, 0x000000002A#40, 0#40, 0#40, 0#40, 0x0000000002#40, 0x0000000020#40] := by decide
/-- 30_encoding.md R32: the frame that goes out. -/
theorem test_getsnReq : ((after .getsnReq State.reset).sent.map frameToWord) = [0x20020000000050FF#64] := by decide
/-- V7: 42. -/
theorem test_getsnRpl : answer (.getsnRpl 42#32 0x86#8 0xFF#8) State.reset = some 0x000000002A#40 := by decide
/-- V9: the corrupted reply. -/
theorem test_getsnRpl_corrupt : answer (.getsnRpl 42#32 0x87#8 0xFF#8) State.reset = some 0x0300008687#40 := by decide

/-- 95_test_vectors.md V10: rows of the table, worked out there bit by bit. -/
theorem test_table_rows : crcTable 0x01#8 = 0x07#8 ∧ crcTable 0x80#8 = 0x89#8 ∧ crcTable 0x31#8 = 0x97#8 ∧
    crcTable 0xFF#8 = 0xF3#8 ∧ crcTable 0xFD#8 = 0xFD#8 := by decide
/-- 95_test_vectors.md P8 b: five bytes written. -/
theorem test_partial_write : ∃ t, getSerialNumber (.count 5) .error State.reset = .next (.partialWrite 8 5, t) := ⟨_, rfl⟩

/-! ## The fixed names: a table word runs as the first instruction after reset -/

theorem test_withFetchWord_command : (match step (State.reset.withFetchWord 56 0x01000000000000) with
    | .next t => t.responses
    | _ => []) = [0x00000000FF#40] := by decide
theorem test_withFetchWord_frame : (match step (State.reset.withFetchWord 64 0x20020000002A86FF) with
    | .next t => t.responses.head?
    | _ => none) = some 0x000000002A#40 := by decide

/-- 10_state.md R19 (b): the step with the word as its parameter; 95_test_vectors.md V12, `ACC` = FF, byte 20. -/
theorem test_stepOn : stepOn (.command 0x02000000000020#56) State.reset.toBlock =
    .next ⟨{ State.reset.toBlock with acc := 0x13#8 }, [0x0000000013#40], []⟩ := by rfl

/-- V8: a frame of another family is received and reported. -/
theorem test_receive_other_family : (match step (State.reset.withFetchWord 64 0x21020000002AAFFF) with
    | .next t => t.responses.head?
    | _ => none) = some 0x0220022102#40 := by decide

/-! ## Witnesses: for each statement with hypotheses, a case that meets them together

One theorem for each group of hypotheses; where a statement has several clauses, one component for each. -/

theorem witness_step_runs : (Stimulus.command 0x01000000000000#56).decode = .ok .crcInit ∧
    Instr.crcInit.wellFormed = true ∧ State.reset.pending = [] := ⟨rfl, rfl, rfl⟩
/-- ResponsesStayLegal: a state with a response, and a step from it. -/
theorem witness_responses_legal : responsesLegal { State.reset with responses := [0x0100000807#40] } ∧
    ∃ t, step { State.reset with responses := [0x0100000807#40], pending := [.command 0x03000000000000#56] } = .next t := by
  refine ⟨?_, _, rfl⟩
  intro rw h
  simp only [List.mem_singleton] at h
  subst h; decide
/-- ErrorsChangeNoState: a reserved word, and a short read. -/
theorem witness_errors :
    (∃ t rw, step { holding 0x5A#8 reply42 with pending := [.command 0x00000000000000#56] } = .next t ∧
      t.responses = rw :: (holding 0x5A#8 reply42).responses ∧ statusOf rw ≠ 0x00#8) ∧
    ∃ t rw, step { holding 0x5A#8 reply42 with pending := [.command 0x09200200000007#56] } = .next t ∧
      t.responses = rw :: (holding 0x5A#8 reply42).responses ∧ statusOf rw ≠ 0x00#8 :=
  ⟨⟨_, _, rfl, rfl, by decide⟩, ⟨_, _, rfl, rfl, by decide⟩⟩
theorem witness_operations : (Instr.frmDecode 0x20#8 0x02#8 8#4).isOperation = true ∧
    (Instr.frmDecode 0x20#8 0x02#8 8#4).wellFormed = true ∧
    decode 0x09200200000008#56 = .ok (.frmDecode 0x20#8 0x02#8 8#4) := ⟨rfl, rfl, rfl⟩
theorem witness_reply_mask : 0x20020000002A86FF#64 &&& 0xFFFF000000000000#64 = 0x2002000000000000#64 := by decide
/-- ReservedOpcodesAnswerIllegal: 0x00, and the two ends of the upper range. -/
theorem witness_reserved : ((0x00#8 : Byte) = 0x00#8) ∧ 0x0A ≤ (0x0A#8 : Byte).toNat ∧ 0x0A ≤ (0xFF#8 : Byte).toNat := by
  decide
/-- RunningTheEncodingIsExecuting: an instruction of each kind is well-formed. -/
theorem witness_encodings : (Instr.fbLoad [1#8]).wellFormed = true ∧ (Instr.rspGetsn 8#4).wellFormed = true ∧
    (Instr.checksumOf []).wellFormed = true ∧ Instr.getsnReq.wellFormed = true := ⟨rfl, rfl, rfl, rfl⟩
theorem witness_equal_lengths : [0x01#8, 0x02#8].length = [0x80#8, 0xFF#8].length := rfl
/-- The must-be-zero hypotheses: the least non-zero value of each field. -/
theorem witness_must_be_zero : (1#48 ≠ 0#48) ∧ (1#40 ≠ 0#40) ∧ (1#45 ≠ 0#45) ∧ (1#37 ≠ 0#37) ∧ (1#28 ≠ 0#28) ∧
    8 < (9#4).toNat := by decide
theorem witness_crcInit_twice : ∃ t u, exec .crcInit State.reset = .next t ∧ exec .crcInit t = .next u := ⟨_, _, rfl, rfl⟩
theorem witness_crcUpd_message : ∃ t, execAll (.crcInit :: [0x20#8, 0x02#8].map .crcUpd) State.reset = .next t := ⟨_, rfl⟩
/-- CrcStreamAndFrameOperationsDoNotInterfere: both kinds, interleaved (the shape of program P7). -/
theorem witness_interleaved : ∃ t, execAll [.crcInit, .frmBuild 1#8 2#8 3#8 4#8 5#8 6#8, .crcUpd 0x20#8, .frmStamp]
    State.reset = .next t := ⟨_, rfl⟩
theorem witness_written : holds (holding 0#8 reply42) 7#3 0xFF#8 ∧ octetGet State.reset.written 0#3 = false :=
  ⟨⟨rfl, rfl⟩, rfl⟩
theorem witness_other_index : (0#3 : FbIndex) ≠ 7#3 := by decide
/-- ReadReturnsTheLatestWrite: instructions between that leave `FB[7]` alone. -/
theorem witness_latest_write : (∀ i ∈ [Instr.frmStamp, .fbWr 6#3 1#8, .crcInit], writesFb 7#3 i = false) ∧
    ∃ t, execAll (.fbWr 7#3 0xAA#8 :: [Instr.frmStamp, .fbWr 6#3 1#8, .crcInit]) State.reset = .next t :=
  ⟨by decide, _, rfl⟩
/-- RegistersChangeOnlyWhereListed: an instruction that leaves `ACC` and seven bytes, and one that writes a byte. -/
theorem witness_registers : (∃ t, exec .frmStamp State.reset = .next t) ∧ writesAcc .frmStamp = false ∧
    writesFb 5#3 .frmStamp = false ∧ writesFb 6#3 .frmStamp = true ∧ Instr.frmStamp ≠ .getsnReq :=
  ⟨⟨_, rfl⟩, rfl, rfl, rfl, by decide⟩
/-- FbLoadFillsFromIndexZero: one byte, eight bytes, none, nine. -/
theorem witness_load_lengths : 1 ≤ [1#8].length ∧ (octetList reply42).length ≤ 8 ∧
    ([] : List Byte).length = 0 ∧ 8 < (0#8 :: octetList reply42).length ∧
    [1#8][(0#3 : FbIndex).toNat]? = some 1#8 ∧ [1#8].length ≤ (1#3 : FbIndex).toNat := by decide
/-- FbDumpAnswersTheFrame: a written buffer dumps as it stands. -/
theorem witness_dump : ∀ k : FbIndex, octetGet reply42 k =
    if octetGet (holding 0#8 reply42).written k then octetGet (holding 0#8 reply42).fb k
    else Config.freeByte ((holding 0#8 reply42).draws + k.toNat) k := by
  intro k; simp [holding]
/-- FrmStampWritesTheChecksum: a written buffer, stamped twice; the worked example's buffer. -/
theorem witness_stamp : holdsFrame (holding 0#8 reply42) reply42 ∧
    (∃ t u, exec .frmStamp (holding 0#8 reply42) = .next t ∧ exec .frmStamp t = .next u) ∧
    holdsFrame (holding 0#8 (frame 0x20#8 0x02#8 0#8 0#8 0#8 0#8 9#8 0xFF#8))
      ⟨0x20#8, 0x02#8, 0#8, 0#8, 0#8, 0#8, 9#8, 0xFF#8⟩ := ⟨⟨rfl, rfl⟩, ⟨_, _, rfl, rfl⟩, rfl, rfl⟩
/-- StampedAndBuiltFramesVerify: bytes 0 to 5 written, byte 6 and 7 not; and a build from reset. -/
theorem witness_stampable : (∀ k : FbIndex, k.toNat < 6 →
    octetGet (after (.fbLoad [0#8, 0#8, 0#8, 0#8, 0#8, 0#8]) State.reset).written k = true) ∧
    (∃ t, exec .frmStamp (after (.fbLoad [0#8, 0#8, 0#8, 0#8, 0#8, 0#8]) State.reset) = .next t) ∧
    ∃ t, exec (.frmBuild 0#8 0#8 0#8 0#8 0#8 0#8) State.reset = .next t := ⟨by decide, ⟨_, rfl⟩, ⟨_, rfl⟩⟩
/-- VerifyIsSensitiveToEveryCoveredBit and TwoAndThreeBitErrorsAreDetected: a frame that verifies; three bits in order. -/
theorem witness_verifies : verify reply42 = true ∧ (0x87#8 : Byte) ≠ reply42.b6 ∧
    (0 : Fin 56) < 1 ∧ (1 : Fin 56) < 55 := by decide
/-- TerminatorIsNotExamined: two states that differ in `FB[7]` only, one of them with no byte written there. -/
theorem witness_terminators : (∀ k, k ≠ 7#3 →
    octetGet ({ holding 0#8 reply42 with written := ⟨true, true, true, true, true, true, true, false⟩ } : State).fb k =
      octetGet (holding 0#8 reply42).fb k ∧
    octetGet ({ holding 0#8 reply42 with written := ⟨true, true, true, true, true, true, true, false⟩ } : State).written k =
      octetGet (holding 0#8 reply42).written k) ∧
    ∃ t, exec (.frmBuild 1#8 2#8 3#8 4#8 5#8 6#8) State.reset = .next t := ⟨by decide, _, rfl⟩
/-- FrmDecodeTriesItsStepsInOrder: the buffer as the operation finds it; one input for each of its clauses, at the
boundary counts 7 and 8. -/
theorem witness_decode : (∀ k, octetGet reply42 k = (holding 0#8 reply42).fbByte k) ∧
    (7#4).toNat < 8 ∧
    ((8#4).toNat = 8 ∧ (reply42.b0 ≠ 0x21#8 ∨ reply42.b1 ≠ 0x02#8)) ∧
    ({ reply42 with b6 := 0x87#8 }.b0 = 0x20#8 ∧ { reply42 with b6 := 0x87#8 }.b1 = 0x02#8 ∧
      frameCrc { reply42 with b6 := 0x87#8 } ≠ { reply42 with b6 := 0x87#8 }.b6) ∧
    (reply42.b0 = 0x20#8 ∧ reply42.b1 = 0x02#8 ∧ frameCrc reply42 = reply42.b6) := by
  refine ⟨?_, by decide, by decide, by decide, by decide⟩
  intro k; simp [State.fbByte, holding]
theorem witness_build_operands : Instr.reqGetsn = .reqGetsn ∧ (0x20#8 : Byte) = 0x20#8 ∧
    Instr.frmBuild 1#8 2#8 3#8 4#8 5#8 6#8 = .frmBuild 1#8 2#8 3#8 4#8 5#8 6#8 := ⟨rfl, rfl, rfl⟩
theorem witness_decode_words : (8#4).toNat ≤ 8 ∧ (0#4).toNat ≤ 8 ∧ (1#28 ≠ 0#28) ∧ 8 < (9#4).toNat := by decide
/-- ShortReadDependsOnNoByte: from reset and from a written buffer. -/
theorem witness_short_reads : (∃ t, exec (.frmDecode 0x20#8 0x02#8 7#4) State.reset = .next t) ∧
    ∃ t, exec (.frmDecode 0x20#8 0x02#8 7#4) (holding 0#8 reply42) = .next t := ⟨⟨_, rfl⟩, _, rfl⟩
/-- EverySerialNumberIsDecoded: serial number 42; GetsnRplDecodesTheReply: a checksum that fits and one that does not. -/
theorem witness_serial : (0x86#8 : Byte) = checksum [0x20#8, 0x02#8, (42#32).extractLsb' 24 8, (42#32).extractLsb' 16 8,
    (42#32).extractLsb' 8 8, (42#32).extractLsb' 0 8] ∧ (0x86#8 : Byte) = checksum [0x20#8, 0x02#8, 0#8, 0#8, 0#8, 0x2A#8] ∧
    (0x87#8 : Byte) ≠ 0x86#8 := by decide
theorem witness_partial_write : (7 : Fin 9).val < 8 ∧ (0 : Fin 9).val < 8 := by decide

end Sys2Proof.Tests
end

section
/-! The two equations of the step (00_scope.md R5, 10_state.md R14, 20_memory.md R26): what it does with an item that
decodes, and what it does with nothing presented. -/

namespace Sys2Proof.Machine

/-- The step takes the item at the head of the list and executes the instruction it decodes to on what remains. -/
theorem step_pending_cons_of_ok {p : Stimulus} {i : Instr} (h : p.decode = .ok i) (rest : List Stimulus) (s : State) :
    step { s with pending := p :: rest } = exec i { s with pending := rest } := by
  rw [step_pending_cons, present_of_ok h]

/-- With nothing presented the step leaves the whole state (assumption log 1). -/
theorem step_of_pending_nil {s : State} (h : s.pending = []) : step s = .next s := by
  simp [step, h]

/-- Settles O2: the two equations of the step. A decoded instruction runs whether or not it is well-formed, so that
hypothesis is not used. -/
theorem stepRunsTheDecodedInstruction : Obligations.StepRunsTheDecodedInstruction :=
  ⟨fun s _ rest _ hdecode _ => step_pending_cons_of_ok hdecode rest s, fun _ hidle => step_of_pending_nil hidle⟩

end Sys2Proof.Machine
end

section
/-! Which instructions are answered with a next state: every item that decodes stands for a well-formed instruction
(30_encoding.md R44), and every well-formed instruction completes (70_reset_and_hazards.md R111). -/

namespace Sys2Proof

/-- A check that rejects: it answers an instruction where the check passes and what follows it answers that one. -/
theorem ite_error_eq_ok_iff {c : Prop} [Decidable c] {x : Except DecodeError Instr} {e : DecodeError} {i : Instr} :
    (if c then x else .error e) = .ok i ↔ c ∧ x = .ok i := by
  split_ifs with h <;> simp [h]

/-- What both ways of a choice answer, the choice answers. -/
theorem imp_of_ite_eq_ok {c P : Prop} [Decidable c] {x y : Except DecodeError Instr} {i : Instr}
    (hx : x = .ok i → P) (hy : y = .ok i → P) : (if c then x else y) = .ok i → P := by
  split_ifs
  · exact hx
  · exact hy

theorem ite_ok_error_eq_ok_iff {c : Prop} [Decidable c] {e : DecodeError} {i j : Instr} :
    (if c then .ok j else .error e : Except DecodeError Instr) = .ok i ↔ c ∧ j = i := by
  rw [ite_error_eq_ok_iff, Except.ok.injEq]

theorem decodeZ_eq_ok_iff {cw : CmdWord} {i j : Instr} : decodeZ cw j = .ok i ↔ cw.extractLsb' 0 48 = 0#48 ∧ j = i :=
  ite_ok_error_eq_ok_iff

theorem decodeB_eq_ok_iff {cw : CmdWord} {k : Byte → Instr} {i : Instr} :
    decodeB cw k = .ok i ↔ cw.extractLsb' 8 40 = 0#40 ∧ k (cw.extractLsb' 0 8) = i :=
  ite_ok_error_eq_ok_iff

theorem decodeX_eq_ok_iff {cw : CmdWord} {k : FbIndex → Instr} {i : Instr} :
    decodeX cw k = .ok i ↔ cw.extractLsb' 3 45 = 0#45 ∧ k (cw.extractLsb' 0 3) = i :=
  ite_ok_error_eq_ok_iff

theorem decodeXB_eq_ok_iff {cw : CmdWord} {k : FbIndex → Byte → Instr} {i : Instr} :
    decodeXB cw k = .ok i ↔ cw.extractLsb' 11 37 = 0#37 ∧ k (cw.extractLsb' 8 3) (cw.extractLsb' 0 8) = i :=
  ite_ok_error_eq_ok_iff

theorem decodeD_eq_ok_iff {cw : CmdWord} {i : Instr} :
    decodeD cw = .ok i ↔ cw.extractLsb' 4 28 = 0#28 ∧ (cw.extractLsb' 0 4).toNat ≤ Config.frameLen ∧
      .frmDecode (cw.extractLsb' 40 8) (cw.extractLsb' 32 8) (cw.extractLsb' 0 4) = i :=
  ite_error_eq_ok_iff.trans (and_congr_right' ite_ok_error_eq_ok_iff)

theorem decodeSent_eq_ok_iff {w : FrameWord} {i : Instr} :
    decodeSent w = .ok i ↔ w = getsnRequestWord ∧ .getsnReq = i :=
  ite_ok_error_eq_ok_iff

theorem decodeReceived_eq_ok_iff {w : FrameWord} {i : Instr} :
    decodeReceived w = .ok i ↔ (w.extractLsb' 56 8 = Config.getsnFamily ∧ w.extractLsb' 48 8 = Config.getsnCode) ∧
      .getsnRpl (w.extractLsb' 16 32) (w.extractLsb' 8 8) (w.extractLsb' 0 8) = i :=
  ite_ok_error_eq_ok_iff

/-- The one operand range a command word could break, the count of FRM.DECODE, is checked by the decoder
(30_encoding.md R44 (b)). -/
theorem wellFormed_of_decode {cw : CmdWord} {i : Instr} (h : decode cw = .ok i) : i.wellFormed = true := by
  revert h
  refine imp_of_ite_eq_ok (fun h => ?crcInit) <| imp_of_ite_eq_ok (fun h => ?crcUpd) <|
    imp_of_ite_eq_ok (fun h => ?crcRd) <| imp_of_ite_eq_ok (fun h => ?fbWr) <| imp_of_ite_eq_ok (fun h => ?fbRd) <|
    imp_of_ite_eq_ok (fun h => ?frmStamp) <| imp_of_ite_eq_ok (fun h => ?frmVerify) <|
    imp_of_ite_eq_ok (fun h => ?frmBuild) <| imp_of_ite_eq_ok (fun h => ?frmDecode) nofun
  case crcInit => obtain ⟨-, rfl⟩ := decodeZ_eq_ok_iff.mp h; rfl
  case crcUpd => obtain ⟨-, rfl⟩ := decodeB_eq_ok_iff.mp h; rfl
  case crcRd => obtain ⟨-, rfl⟩ := decodeZ_eq_ok_iff.mp h; rfl
  case fbWr => obtain ⟨-, rfl⟩ := decodeXB_eq_ok_iff.mp h; rfl
  case fbRd => obtain ⟨-, rfl⟩ := decodeX_eq_ok_iff.mp h; rfl
  case frmStamp => obtain ⟨-, rfl⟩ := decodeZ_eq_ok_iff.mp h; rfl
  case frmVerify => obtain ⟨-, rfl⟩ := decodeZ_eq_ok_iff.mp h; rfl
  case frmBuild => cases h; rfl
  case frmDecode => obtain ⟨-, hn, rfl⟩ := decodeD_eq_ok_iff.mp h; exact decide_eq_true hn

theorem Stimulus.wellFormed_of_decode {p : Stimulus} {i : Instr} (h : p.decode = .ok i) : i.wellFormed = true := by
  cases p with
  | command cw => exact Sys2Proof.wellFormed_of_decode h
  | sendFrame w => obtain ⟨-, rfl⟩ := decodeSent_eq_ok_iff.mp h; rfl
  | receiveFrame w => obtain ⟨-, rfl⟩ := decodeReceived_eq_ok_iff.mp h; rfl
  | reset => cases h

end Sys2Proof

namespace Sys2Proof.Machine

theorem execFbLoad_eq_next_iff {bs : List Byte} {s t : State} :
    execFbLoad bs s = .next t ↔ (1 ≤ bs.length ∧ bs.length ≤ Config.frameLen) ∧ s.fbLoadFrom 0 bs = t := by
  unfold execFbLoad; split <;> simp_all

/-- Only FB.LOAD can be refused, and only outside the range that makes it well-formed (assumption log 15). -/
theorem exec_completes {i : Instr} (h : i.wellFormed = true) (s : State) : ∃ t, exec i s = .next t := by
  cases i with
  | fbLoad bs => exact ⟨_, execFbLoad_eq_next_iff.mpr ⟨of_decide_eq_true h, rfl⟩⟩
  | _ => exact ⟨_, rfl⟩

theorem present_completes (p : Stimulus) (s : State) : ∃ t, present p s = .next t := by
  cases h : p.decode with
  | ok i => rw [present_of_ok h]; exact exec_completes (p.wellFormed_of_decode h) s
  | error e => exact ⟨_, present_of_error h s⟩

end Sys2Proof.Machine
end

section
/-! The block beside another host (10_state.md R19 (b)): what is presented later, and what was answered and sent before,
is carried along by every operation and read by none. -/

namespace Sys2Proof.Machine

/-- The state `s` with other items to come, and with earlier answers and frames behind its own. -/
def State.beside (s : State) (rest : List Stimulus) (answered : List RespWord) (sent : List Frame) : State :=
  { toBlock := s.toBlock, pending := rest, responses := s.responses ++ answered, sent := s.sent ++ sent }

section
variable (s : State) (rest : List Stimulus) (answered : List RespWord) (sent : List Frame)

theorem State.fbFrame_beside : (s.beside rest answered sent).fbFrame = s.fbFrame := rfl

theorem State.crcUpdAll_beside (bs : List Byte) :
    (s.beside rest answered sent).crcUpdAll bs = (s.crcUpdAll bs).beside rest answered sent := by
  induction bs generalizing s with
  | nil => rfl
  | cons b bs ih => exact ih (s.crcUpd b)

theorem State.fbLoadFrom_beside (k : Nat) (bs : List Byte) :
    (s.beside rest answered sent).fbLoadFrom k bs = (s.fbLoadFrom k bs).beside rest answered sent := by
  induction bs generalizing k s with
  | nil => rfl
  | cons b bs ih => exact ih (s.fbWr (BitVec.ofNat 3 k) b) (k + 1)

theorem State.fbRdAll_beside (is : List FbIndex) :
    (s.beside rest answered sent).fbRdAll is = (s.fbRdAll is).beside rest answered sent := by
  induction is generalizing s with
  | nil => rfl
  | cons i is ih => exact ih (s.fbRd i)

theorem State.fbDump_beside : (s.beside rest answered sent).fbDump = s.fbDump.beside rest answered sent :=
  State.fbRdAll_beside s rest answered sent fbIndices

theorem State.dumpedFrame_beside : (s.beside rest answered sent).dumpedFrame = s.dumpedFrame := rfl

theorem State.dumpAndSend_beside :
    (s.beside rest answered sent).dumpAndSend = s.dumpAndSend.beside rest answered sent := by
  rw [State.dumpAndSend, State.fbDump_beside, State.dumpedFrame_beside]
  rfl

theorem State.answerDecode_beside (r : DecodeResult) :
    (s.beside rest answered sent).answerDecode r = (s.answerDecode r).beside rest answered sent := by
  cases r <;> rfl

theorem State.frmDecode_beside (efam ecode : Byte) (n : BitVec 4) :
    (s.beside rest answered sent).frmDecode efam ecode n = (s.frmDecode efam ecode n).beside rest answered sent := by
  unfold State.frmDecode
  split
  · rw [State.fbFrame_beside, State.answerDecode_beside]
  · rfl

theorem State.receiveReply_beside (F : Frame) :
    (s.beside rest answered sent).receiveReply F = (s.receiveReply F).beside rest answered sent := by
  simp only [State.receiveReply, State.rspGetsn, State.fbLoadFrom_beside, State.frmDecode_beside]

theorem State.presentOther_beside (p : Stimulus) :
    (s.beside rest answered sent).presentOther p = (s.presentOther p).beside rest answered sent := by
  cases p with
  | command cw => rfl
  | sendFrame w => simp only [State.presentOther, State.sendByHand, State.fbLoadFrom_beside, State.dumpAndSend_beside]
  | receiveFrame w => exact State.receiveReply_beside s rest answered sent (frameOfWord w)
  | reset => rfl

end

/-- Executing an instruction beside another host ends in the same block, with the same answers and frames in front. The
straight-line operations hold by computation; the loops and the branches of FRM.DECODE by their own lemmas. -/
theorem exec_beside {i : Instr} {s t : State} (h : exec i s = .next t) (rest : List Stimulus) (answered : List RespWord)
    (sent : List Frame) : exec i (s.beside rest answered sent) = .next (t.beside rest answered sent) := by
  cases i with
  | checksumOf bs =>
    cases h
    exact congrArg (Host.Outcome.next ∘ State.crcRd) (State.crcUpdAll_beside s.crcInit rest answered sent bs)
  | fbLoad bs =>
    obtain ⟨hlen, rfl⟩ := execFbLoad_eq_next_iff.mp h
    exact execFbLoad_eq_next_iff.mpr ⟨hlen, State.fbLoadFrom_beside s rest answered sent 0 bs⟩
  | frmDecode efam ecode n =>
    cases h; exact congrArg Host.Outcome.next (State.frmDecode_beside s rest answered sent efam ecode n)
  | rspGetsn n => cases h; exact congrArg Host.Outcome.next (State.frmDecode_beside s rest answered sent _ _ n)
  | getsnRpl serial cc tt =>
    cases h; exact congrArg Host.Outcome.next (State.receiveReply_beside s rest answered sent _)
  | fbDump => cases h; exact congrArg Host.Outcome.next (State.fbDump_beside s rest answered sent)
  | getsnReq => cases h; exact congrArg Host.Outcome.next (State.dumpAndSend_beside s.reqGetsn rest answered sent)
  | crcInit | crcUpd | crcRd | fbWr | fbRd | frmStamp | frmVerify | frmBuild | reqGetsn =>
    cases h; rfl

theorem present_beside {p : Stimulus} {s t : State} (h : present p s = .next t) (rest : List Stimulus)
    (answered : List RespWord) (sent : List Frame) :
    present p (s.beside rest answered sent) = .next (t.beside rest answered sent) := by
  cases hp : p.decode with
  | ok i =>
    rw [present_of_ok hp] at h ⊢
    exact exec_beside h rest answered sent
  | error e =>
    rw [present_of_error hp] at h ⊢
    cases h
    rw [State.presentOther_beside]

theorem stepOn_of_present {p : Stimulus} {b : Block} {t : State}
    (h : present p { toBlock := b, pending := [], responses := [], sent := [] } = .next t) :
    stepOn p b = .next ⟨t.toBlock, t.responses, t.sent⟩ := by
  simp [stepOn, h]

/-- Settles O48: the item is presented to the block alone, and any other host is put beside it afterwards. -/
theorem stepTakesTheStimulusAsAParameter : Obligations.StepTakesTheStimulusAsAParameter := by
  intro p b
  obtain ⟨t, ht⟩ := present_completes p { toBlock := b, pending := [], responses := [], sent := [] }
  exact ⟨_, stepOn_of_present ht, fun rest answered sent => present_beside ht rest answered sent⟩

/-- A run of the machine begins with its first step. -/
theorem core_run_succ_of_step {s t : State} (h : step s = .next t) (k : Nat) :
    Sys2Proof.core.run (k + 1) s = Sys2Proof.core.run k t := by
  have hcore : Sys2Proof.core.step s = .next t := h
  simp only [Host.Core.run, hcore]

/-- Settles O49, by induction on the stream: the first step is O48's, beside the items that follow; the answers of the
rest come in front of the first one's. -/
theorem everyStreamRunsAsAParameter : Obligations.EveryStreamRunsAsAParameter := by
  intro ps
  induction ps with
  | nil => exact fun b => ⟨_, runOn_nil b, fun _ _ _ => rfl⟩
  | cons p ps ih =>
    intro b
    obtain ⟨r, hr, hstep⟩ := stepTakesTheStimulusAsAParameter p b
    obtain ⟨q, hq, hrun⟩ := ih r.block
    refine ⟨_, runOn_cons_of_next hr hq, fun rest answered sent => ?_⟩
    calc Sys2Proof.core.run (ps.length + 1)
          { toBlock := b, pending := p :: (ps ++ rest), responses := answered, sent := sent }
        = Sys2Proof.core.run ps.length
          { toBlock := r.block, pending := ps ++ rest, responses := r.responses ++ answered, sent := r.sent ++ sent } :=
          core_run_succ_of_step (hstep (ps ++ rest) answered sent) ps.length
      _ = _ := by rw [hrun, List.append_assoc, List.append_assoc]

end Sys2Proof.Machine
end

section
/-! The registers each instruction can change (10_state.md R10, R11). -/

namespace Sys2Proof.Machine

open Sys2Proof.Safety

/-! ## What a load leaves alone and what it marks -/

/-- The index of the `k`-th byte, where there is one (20_memory.md R20). -/
theorem toNat_ofNat_fbIndex {k : Nat} (h : k < 8) : (BitVec.ofNat 3 k).toNat = k := by
  rw [BitVec.toNat_ofNat]; exact Nat.mod_eq_of_lt h

/-- A load of the bytes at indices `k` to `k + bs.length - 1` leaves every other index alone (30_encoding.md R47). -/
theorem State.fbLoadFrom_outside {k : Nat} {bs : List Byte} (hlen : k + bs.length ≤ 8) (s : State) {j : FbIndex}
    (hj : j.toNat < k ∨ k + bs.length ≤ j.toNat) :
    octetGet (s.fbLoadFrom k bs).fb j = octetGet s.fb j ∧
      octetGet (s.fbLoadFrom k bs).written j = octetGet s.written j := by
  induction bs generalizing k s with
  | nil => exact ⟨rfl, rfl⟩
  | cons b bs ih =>
    rw [List.length_cons] at hlen hj
    have hne : j ≠ BitVec.ofNat 3 k := by
      rintro rfl
      rw [toNat_ofNat_fbIndex (by omega)] at hj
      omega
    obtain ⟨hfb, hwritten⟩ := ih (k := k + 1) (by omega) (s.fbWr (BitVec.ofNat 3 k) b) (by omega)
    exact ⟨hfb.trans (octetGet_set_other _ _ hne), hwritten.trans (octetGet_set_other _ _ hne)⟩

/-- A load marks every index it writes (30_encoding.md R47). -/
theorem State.fbLoadFrom_marks {k : Nat} {bs : List Byte} (hlen : k + bs.length ≤ 8) (s : State) {j : FbIndex}
    (hk : k ≤ j.toNat) (hj : j.toNat < k + bs.length) : octetGet (s.fbLoadFrom k bs).written j = true := by
  induction bs generalizing k s with
  | nil => rw [List.length_nil] at hj; omega
  | cons b bs ih =>
    rw [List.length_cons] at hlen hj
    rcases Nat.eq_or_lt_of_le hk with heq | hlt
    · have hat : BitVec.ofNat 3 k = j := BitVec.eq_of_toNat_eq (by rw [toNat_ofNat_fbIndex (by omega), heq])
      rw [State.fbLoadFrom, (State.fbLoadFrom_outside (by omega) _ (.inl (by omega))).2, hat]
      exact octetGet_set_same _ _ _
    · exact ih (k := k + 1) (by omega) _ hlt (by omega)

/-! ## The frame of an instruction -/

/-- The registers change from `s` to `t` only where `i` is listed as writing them, the bytes it writes count as written,
only GETSN.REQ hands out frames (assumption log 8), and what is presented next stays. -/
structure RegisterFrame (i : Instr) (s t : State) : Prop where
  acc : writesAcc i = false → t.acc = s.acc
  fb : ∀ k, writesFb k i = false → octetGet t.fb k = octetGet s.fb k ∧ octetGet t.written k = octetGet s.written k
  marked : ∀ k, writesFb k i = true → octetGet t.written k = true
  sent : i ≠ .getsnReq → t.sent = s.sent
  pending : t.pending = s.pending

/-- An instruction that writes no byte of `FB`, and `ACC` only where it may. -/
theorem RegisterFrame.of_fb_kept {i : Instr} {s : State} {a : Byte} (hfb : ∀ k, writesFb k i = false)
    (hacc : writesAcc i = true ∨ a = s.acc) (d : Nat) (rs : List RespWord) :
    RegisterFrame i s { s with acc := a, draws := d, responses := rs } where
  acc h := hacc.resolve_left (Bool.eq_false_iff.mp h)
  fb _ _ := ⟨rfl, rfl⟩
  marked k h := absurd h (Bool.eq_false_iff.mp (hfb k))
  sent _ := rfl
  pending := rfl

/-- An instruction that writes the one byte `FB[j]`. -/
theorem RegisterFrame.of_byte_written {i : Instr} {j : FbIndex} (hj : ∀ k, writesFb k i = true ↔ k = j) (s : State)
    (b : Byte) (d : Nat) (rs : List RespWord) :
    RegisterFrame i s
      { s with fb := octetSet s.fb j b, written := octetSet s.written j true, draws := d, responses := rs } where
  acc _ := rfl
  fb k h := by
    have hne : k ≠ j := mt (hj k).mpr (Bool.eq_false_iff.mp h)
    exact ⟨octetGet_set_other _ _ hne, octetGet_set_other _ _ hne⟩
  marked k h := by rw [(hj k).mp h]; exact octetGet_set_same _ _ _
  sent _ := rfl
  pending := rfl

/-- An instruction that writes all eight bytes of `FB`, and sends frames only where it may. -/
theorem RegisterFrame.of_frame_written {i : Instr} {s : State} {fs : List Frame} (hfb : ∀ k, writesFb k i = true)
    (hsent : i ≠ .getsnReq → fs = s.sent) (F : Frame) (d : Nat) (rs : List RespWord) :
    RegisterFrame i s { s with fb := F, written := octetFill true, draws := d, responses := rs, sent := fs } where
  acc _ := rfl
  fb k h := absurd (hfb k) (Bool.eq_false_iff.mp h)
  marked _ _ := octetGet_fill _ _
  sent := hsent
  pending := rfl

/-- FB.LOAD writes the indices below the number of its bytes. -/
theorem RegisterFrame.of_load {bs : List Byte} (hlen : bs.length ≤ 8) (s : State) :
    RegisterFrame (.fbLoad bs) s (s.fbLoadFrom 0 bs) := by
  obtain ⟨fb, written, heq⟩ := State.fbLoadFrom_spec 0 bs s
  have hlen0 : 0 + bs.length ≤ 8 := by omega
  exact {
    acc := fun _ => by rw [heq]
    fb := fun k h => by
      have hk : ¬ k.toNat < bs.length := of_decide_eq_false h
      exact State.fbLoadFrom_outside hlen0 s (.inr (by omega))
    marked := fun k h => by
      have hk : k.toNat < bs.length := of_decide_eq_true h
      exact State.fbLoadFrom_marks hlen0 s (Nat.zero_le _) (by omega)
    sent := fun _ => by rw [heq]
    pending := by rw [heq] }

/-- An instruction that ends in FRM.DECODE of the buffer as it stands. -/
theorem RegisterFrame.of_decode {i : Instr} (hfb : ∀ k, writesFb k i = false) (efam ecode : Byte) (n : BitVec 4)
    (s : State) : RegisterFrame i s (s.frmDecode efam ecode n) := by
  obtain ⟨rw, d, -, heq⟩ := State.frmDecode_spec efam ecode n s
  rw [heq]
  exact .of_fb_kept hfb (.inr rfl) d _

/-- Loading and decoding a received frame writes all of `FB` and sends nothing (42_frame_transaction.md R76). -/
theorem State.receiveReply_spec (F : Frame) (s : State) :
    ∃ d rs, s.receiveReply F = { s with fb := F, written := octetFill true, draws := d, responses := rs } := by
  rw [State.receiveReply, State.fbLoadFrom_frame, State.rspGetsn]
  obtain ⟨rw, d, -, heq⟩ := State.frmDecode_spec Config.getsnFamily Config.getsnCode 8#4 { s with
    fb := F, written := octetFill true, responses := List.replicate 8 (resp .ok 0#32) ++ s.responses }
  exact ⟨d, _, heq⟩

/-- Dumping and sending writes no register (42_frame_transaction.md R76). -/
theorem State.dumpAndSend_spec (s : State) :
    ∃ rs, s.dumpAndSend = { s with draws := s.draws + 8, responses := rs, sent := s.dumpedFrame :: s.sent } := by
  rw [State.dumpAndSend, State.fbDump_eq]
  exact ⟨_, rfl⟩

theorem exec_registerFrame {i : Instr} {s t : State} (h : exec i s = .next t) : RegisterFrame i s t := by
  cases i with
  | crcInit => cases h; exact .of_fb_kept (fun _ => rfl) (.inl rfl) s.draws _
  | crcUpd b => cases h; exact .of_fb_kept (fun _ => rfl) (.inl rfl) s.draws _
  | checksumOf bs =>
    cases h
    obtain ⟨rs, -, heq⟩ := State.crcUpdAll_spec bs s.crcInit
    rw [heq]
    exact .of_fb_kept (fun _ => rfl) (.inl rfl) s.draws _
  | crcRd => cases h; exact .of_fb_kept (fun _ => rfl) (.inr rfl) s.draws _
  | fbRd k => cases h; exact .of_fb_kept (fun _ => rfl) (.inr rfl) _ _
  | frmVerify => cases h; exact .of_fb_kept (fun _ => rfl) (.inr rfl) _ _
  | fbDump => cases h; rw [State.fbDump_eq]; exact .of_fb_kept (fun _ => rfl) (.inr rfl) _ _
  | frmDecode efam ecode n => cases h; exact .of_decode (fun _ => rfl) efam ecode n s
  | rspGetsn n => cases h; exact .of_decode (fun _ => rfl) _ _ n s
  | fbWr j b => cases h; exact .of_byte_written (fun _ => beq_iff_eq.trans eq_comm) s b s.draws _
  | frmStamp => cases h; exact .of_byte_written (fun _ => beq_iff_eq) s _ _ _
  | fbLoad bs =>
    obtain ⟨⟨-, hlen⟩, rfl⟩ := execFbLoad_eq_next_iff.mp h
    exact .of_load hlen s
  | frmBuild fam code p0 p1 p2 p3 => cases h; exact .of_frame_written (fun _ => rfl) (fun _ => rfl) _ s.draws _
  | reqGetsn => cases h; exact .of_frame_written (fun _ => rfl) (fun _ => rfl) _ s.draws _
  | getsnReq =>
    cases h
    obtain ⟨rs, heq⟩ := State.dumpAndSend_spec s.reqGetsn
    rw [heq]
    exact .of_frame_written (fun _ => rfl) (fun hne => absurd rfl hne) _ _ _
  | getsnRpl serial cc tt =>
    cases h
    obtain ⟨d, rs, heq⟩ := State.receiveReply_spec ⟨Config.getsnFamily, Config.getsnCode, be32Byte serial 0,
      be32Byte serial 1, be32Byte serial 2, be32Byte serial 3, cc, tt⟩ s
    rw [heq]
    exact .of_frame_written (fun _ => rfl) (fun _ => rfl) _ _ _

/-- Settles O28: the frame of each instruction, clause by clause. -/
theorem registersChangeOnlyWhereListed : Obligations.RegistersChangeOnlyWhereListed := by
  intro i s t h
  obtain ⟨hacc, hfb, hmarked, hsent, hpending⟩ := exec_registerFrame h
  exact ⟨hacc, hfb, hmarked, hsent, hpending⟩

end Sys2Proof.Machine
end

section
/-! What a read of the frame buffer finds, the table (10_state.md R12, R13) and the reset (10_state.md R18,
70_reset_and_hazards.md R100, R101). -/

namespace Sys2Proof.Machine

/-- The frame an operation finds has at each index the byte it finds there. -/
@[simp] theorem State.octetGet_fbFrame (s : State) (k : FbIndex) : octetGet s.fbFrame k = s.fbByte k := by
  revert k; rw [forall_fbIndex]; exact ⟨rfl, rfl, rfl, rfl, rfl, rfl, rfl, rfl⟩

/-- Settles O24: the two cases of a read, and the frame as the eight reads. -/
theorem fbReadsStoredOrFreeByte : Obligations.FbReadsStoredOrFreeByte :=
  ⟨State.octetGet_fbFrame, fun _ _ => State.fbByte_of_written, fun _ _ => State.fbByte_of_unwritten⟩

set_option maxRecDepth 20000 in
/-- The listing of R13 is the table of R12, entry by entry: a finite check of 256 entries. -/
theorem tableListing_eq_map :
    tableListing = (List.range 256).map fun n => (crcTable (BitVec.ofNat 8 n)).toNat := by decide

theorem tableListing_getElem? (x : Byte) : tableListing[x.toNat]? = some (crcTable x).toNat := by
  rw [tableListing_eq_map, List.getElem?_map, List.getElem?_range x.isLt, Option.map_some, BitVec.ofNat_toNat,
    BitVec.setWidth_eq]

/-- Settles O16: the listing is the 256 computed entries in order. -/
theorem tableIsTheListing : Obligations.TableIsTheListing :=
  ⟨by rw [tableListing_eq_map, List.length_map, List.length_range], tableListing_getElem?⟩

/-- The reset event takes the item and applies the reset (70_reset_and_hazards.md R100). -/
theorem step_reset (s : State) (rest : List Stimulus) :
    step { s with pending := .reset :: rest } = .next (State.applyReset { s with pending := rest }) := rfl

/-- After the reset event every byte of `FB` reads as a free value (assumption log 3). -/
theorem State.applyReset_fbByte (s : State) (k : FbIndex) : s.applyReset.fbByte k = Config.freeByte s.draws k :=
  State.fbByte_of_unwritten (octetGet_fill false k)

/-- Settles O1: the fields of the reset state, the table, and the fields of the state after the reset event. -/
theorem resetPutsAccAtFFAndForgetsTheFrame : Obligations.ResetPutsAccAtFFAndForgetsTheFrame :=
  ⟨rfl, octetGet_fill false, tableListing_getElem?, fun s rest =>
    ⟨_, step_reset s rest, rfl, octetGet_fill false, State.applyReset_fbByte _, rfl, rfl, rfl, rfl⟩⟩

end Sys2Proof.Machine
end

section
/-! Reads after writes (20_memory.md R27 (b)): a byte of `FB` holds what was last written through every instruction that
does not write it. -/

namespace Sys2Proof.Machine

open Sys2Proof.Safety

/-! ## Instructions one after another -/

/-- A list of instructions completes exactly when its first does and the rest completes from there. -/
theorem execAll_cons_eq_next_iff {i : Instr} {is : List Instr} {s u : State} :
    execAll (i :: is) s = .next u ↔ ∃ t, exec i s = .next t ∧ execAll is t = .next u := by
  rw [execAll]
  cases exec i s <;> simp

/-- What each instruction of a list keeps, the list keeps. -/
theorem execAll_keeps {P : State → Prop} {is : List Instr}
    (hkeep : ∀ i ∈ is, ∀ s t, exec i s = .next t → P s → P t) {s t : State} (hrun : execAll is s = .next t)
    (hs : P s) : P t := by
  induction is generalizing s with
  | nil => cases hrun; exact hs
  | cons i is ih =>
    obtain ⟨u, hfirst, hrest⟩ := execAll_cons_eq_next_iff.mp hrun
    obtain ⟨hhead, htail⟩ := List.forall_mem_cons.mp hkeep
    exact ih htail hrest (hhead s u hfirst hs)

/-! ## The byte that is held -/

/-- FB.WR leaves its byte held (41_frame_codec.md R60). -/
theorem State.fbWr_holds (k : FbIndex) (b : Byte) (s : State) : holds (s.fbWr k b) k b :=
  ⟨octetGet_set_same _ _ _, octetGet_set_same _ _ _⟩

/-- FB.RD answers the byte that is held (41_frame_codec.md R61). -/
theorem State.fbRd_of_holds {s : State} {k : FbIndex} {b : Byte} (h : holds s k b) :
    s.fbRd k = s.drawn.respond .ok (zext32 b) := by
  obtain ⟨hwritten, hfb⟩ := h
  rw [State.fbRd, State.fbByte_of_written hwritten, hfb]

/-- An instruction that does not write `FB[k]` leaves it held (10_state.md R11). -/
theorem exec_keeps_holds {i : Instr} {k : FbIndex} (hk : writesFb k i = false) {s t : State} (h : exec i s = .next t)
    {b : Byte} (hs : holds s k b) : holds t k b := by
  obtain ⟨hheldWritten, hheldFb⟩ := hs
  obtain ⟨hfb, hwritten⟩ := (exec_registerFrame h).fb k hk
  exact ⟨hwritten.trans hheldWritten, hfb.trans hheldFb⟩

/-- Settles O27: the write leaves the byte held, each instruction after it keeps that, and the read answers it. -/
theorem readReturnsTheLatestWrite : Obligations.ReadReturnsTheLatestWrite := by
  intro is s t k b hother hrun
  obtain ⟨u, hwrite, hrest⟩ := execAll_cons_eq_next_iff.mp hrun
  cases hwrite
  have hheld : holds t k b :=
    execAll_keeps (P := fun u => holds u k b) (fun i hi _ _ h => exec_keeps_holds (hother i hi) h) hrest
      (State.fbWr_holds k b s)
  exact ⟨t.fbRd k, rfl, congrArg State.responses (State.fbRd_of_holds hheld)⟩

end Sys2Proof.Machine
end

section
/-! `be32` as a number and its inverse (20_memory.md R23, R24). -/

namespace Sys2Proof.Machine

/-- Appending below shifts the value above by the width appended. -/
theorem toNat_append_eq_mul_add {m n : Nat} (x : BitVec m) (y : BitVec n) :
    (x ++ y).toNat = x.toNat * 2 ^ n + y.toNat := by
  rw [BitVec.toNat_append, ← Nat.shiftLeft_add_eq_or_of_lt y.isLt, Nat.shiftLeft_eq]

theorem be32_toNat (b0 b1 b2 b3 : Byte) :
    (be32 b0 b1 b2 b3).toNat = b0.toNat * 2 ^ 24 + b1.toNat * 2 ^ 16 + b2.toNat * 2 ^ 8 + b3.toNat := by
  simp only [be32, toNat_append_eq_mul_add]
  omega

/-- Each append joins a byte to the adjacent bits above it, until all 32 are there. -/
theorem be32_be32Byte (v : Data) : be32 (be32Byte v 0) (be32Byte v 1) (be32Byte v 2) (be32Byte v 3) = v := by
  have htop : be32Byte v 0 ++ be32Byte v 1 = v.extractLsb' 16 16 :=
    BitVec.extractLsb'_append_extractLsb'_eq_extractLsb' rfl
  have hupper : v.extractLsb' 16 16 ++ be32Byte v 2 = v.extractLsb' 8 24 :=
    BitVec.extractLsb'_append_extractLsb'_eq_extractLsb' rfl
  calc be32 (be32Byte v 0) (be32Byte v 1) (be32Byte v 2) (be32Byte v 3)
      = v.extractLsb' 8 24 ++ v.extractLsb' 0 8 := by rw [be32, htop, hupper]; rfl
    _ = v := BitVec.extractLsb'_append_extractLsb'

/-- Settles O38: the number, the inverse, and the rule's four examples by computation. -/
theorem be32IsBigEndian : Obligations.Be32IsBigEndian :=
  ⟨be32_toNat, be32_be32Byte, rfl, rfl, rfl, rfl⟩

end Sys2Proof.Machine
end

section
/-! The words field by field (30_encoding.md R33 to R39): a word is an encoding exactly when each of its fields is. -/

namespace Sys2Proof

/-- A slice is two parts side by side exactly when its upper and its lower slice are those parts. -/
theorem extractLsb'_eq_append_iff {w start : Nat} (m n : Nat) {x : BitVec w} {hi : BitVec m} {lo : BitVec n} :
    x.extractLsb' start (m + n) = hi ++ lo ↔ x.extractLsb' (start + n) m = hi ∧ x.extractLsb' start n = lo := by
  rw [← BitVec.extractLsb'_append_extractLsb'_eq_extractLsb' (x := x) (start₂ := start + n) rfl]
  constructor
  · intro h
    constructor
    · simpa only [BitVec.extractLsb'_append_eq_left] using congrArg (BitVec.extractLsb' n m) h
    · simpa only [BitVec.extractLsb'_append_eq_right] using congrArg (BitVec.extractLsb' 0 n) h
  · rintro ⟨rfl, rfl⟩
    rfl

/-- The lowest part of a slice split off in front of what is known of the parts below it. -/
theorem extractLsb'_eq_append_and_iff {w start : Nat} (m n : Nat) {x : BitVec w} {hi : BitVec m} {lo : BitVec n}
    {P : Prop} :
    x.extractLsb' start (m + n) = hi ++ lo ∧ P ↔
      x.extractLsb' (start + n) m = hi ∧ x.extractLsb' start n = lo ∧ P := by
  rw [extractLsb'_eq_append_iff, and_assoc]

theorem eq_append_iff (m n : Nat) {x : BitVec (m + n)} {hi : BitVec m} {lo : BitVec n} :
    x = hi ++ lo ↔ x.extractLsb' n m = hi ∧ x.extractLsb' 0 n = lo := by
  simpa only [BitVec.extractLsb'_eq_self, Nat.zero_add] using
    extractLsb'_eq_append_iff m n (x := x) (start := 0) (hi := hi) (lo := lo)

section
variable {cw : CmdWord} {op : Byte}

theorem eq_wordZ_iff : cw = wordZ op ↔ opcodeOf cw = op ∧ cw.extractLsb' 0 48 = 0#48 :=
  eq_append_iff 8 48

theorem eq_wordB_iff {b : Byte} :
    cw = wordB op b ↔ opcodeOf cw = op ∧ cw.extractLsb' 8 40 = 0#40 ∧ cw.extractLsb' 0 8 = b :=
  (eq_append_iff 48 8).trans (extractLsb'_eq_append_and_iff 8 40)

theorem eq_wordX_iff {i : FbIndex} :
    cw = wordX op i ↔ opcodeOf cw = op ∧ cw.extractLsb' 3 45 = 0#45 ∧ cw.extractLsb' 0 3 = i :=
  (eq_append_iff 53 3).trans (extractLsb'_eq_append_and_iff 8 45)

theorem eq_wordXB_iff {i : FbIndex} {b : Byte} :
    cw = wordXB op i b ↔
      opcodeOf cw = op ∧ cw.extractLsb' 11 37 = 0#37 ∧ cw.extractLsb' 8 3 = i ∧ cw.extractLsb' 0 8 = b :=
  (eq_append_iff 48 8).trans <| (extractLsb'_eq_append_and_iff 45 3).trans <| extractLsb'_eq_append_and_iff 8 37

theorem eq_wordF_iff {fam code p0 p1 p2 p3 : Byte} :
    cw = wordF op fam code p0 p1 p2 p3 ↔
      opcodeOf cw = op ∧ cw.extractLsb' 40 8 = fam ∧ cw.extractLsb' 32 8 = code ∧ cw.extractLsb' 24 8 = p0 ∧
        cw.extractLsb' 16 8 = p1 ∧ cw.extractLsb' 8 8 = p2 ∧ cw.extractLsb' 0 8 = p3 :=
  (eq_append_iff 48 8).trans <| (extractLsb'_eq_append_and_iff 40 8).trans <|
    (extractLsb'_eq_append_and_iff 32 8).trans <| (extractLsb'_eq_append_and_iff 24 8).trans <|
    (extractLsb'_eq_append_and_iff 16 8).trans <| extractLsb'_eq_append_and_iff 8 8

theorem eq_wordD_iff {efam ecode : Byte} {n : BitVec 4} :
    cw = wordD op efam ecode n ↔
      opcodeOf cw = op ∧ cw.extractLsb' 40 8 = efam ∧ cw.extractLsb' 32 8 = ecode ∧ cw.extractLsb' 4 28 = 0#28 ∧
        cw.extractLsb' 0 4 = n :=
  (eq_append_iff 52 4).trans <| (extractLsb'_eq_append_and_iff 24 28).trans <|
    (extractLsb'_eq_append_and_iff 16 8).trans <| extractLsb'_eq_append_and_iff 8 8

end

theorem eq_getsnRplWord_iff {w : FrameWord} {serial : Data} {cc tt : Byte} :
    w = Config.getsnFamily ++ Config.getsnCode ++ serial ++ cc ++ tt ↔
      w.extractLsb' 56 8 = Config.getsnFamily ∧ w.extractLsb' 48 8 = Config.getsnCode ∧
        w.extractLsb' 16 32 = serial ∧ w.extractLsb' 8 8 = cc ∧ w.extractLsb' 0 8 = tt :=
  (eq_append_iff 56 8).trans <| (extractLsb'_eq_append_and_iff 48 8).trans <|
    (extractLsb'_eq_append_and_iff 16 32).trans <| extractLsb'_eq_append_and_iff 8 8

end Sys2Proof
end

section
/-! The decoder and the encoder are inverse to each other on the nine operations (30_encoding.md R42 to R44). -/

namespace Sys2Proof

/-! ## The equation of each opcode (R42, R43) -/

section
variable {cw : CmdWord}

theorem decode_of_crcInit (h : opcodeOf cw = 0x01#8) : decode cw = decodeZ cw .crcInit := by simp [decode, h]
theorem decode_of_crcUpd (h : opcodeOf cw = 0x02#8) : decode cw = decodeB cw .crcUpd := by simp [decode, h]
theorem decode_of_crcRd (h : opcodeOf cw = 0x03#8) : decode cw = decodeZ cw .crcRd := by simp [decode, h]
theorem decode_of_fbWr (h : opcodeOf cw = 0x04#8) : decode cw = decodeXB cw .fbWr := by simp [decode, h]
theorem decode_of_fbRd (h : opcodeOf cw = 0x05#8) : decode cw = decodeX cw .fbRd := by simp [decode, h]
theorem decode_of_frmStamp (h : opcodeOf cw = 0x06#8) : decode cw = decodeZ cw .frmStamp := by simp [decode, h]
theorem decode_of_frmVerify (h : opcodeOf cw = 0x07#8) : decode cw = decodeZ cw .frmVerify := by simp [decode, h]
theorem decode_of_frmBuild (h : opcodeOf cw = 0x08#8) : decode cw = decodeF cw := by simp [decode, h]
theorem decode_of_frmDecode (h : opcodeOf cw = 0x09#8) : decode cw = decodeD cw := by simp [decode, h]

/-- The opcodes that R43 reserves. -/
def reservedOp (op : Byte) : Prop := op = 0x00#8 ∨ 0x0A ≤ op.toNat

theorem opcode_cases (op : Byte) :
    op = 0x01#8 ∨ op = 0x02#8 ∨ op = 0x03#8 ∨ op = 0x04#8 ∨ op = 0x05#8 ∨ op = 0x06#8 ∨ op = 0x07#8 ∨ op = 0x08#8 ∨
      op = 0x09#8 ∨ reservedOp op := by
  unfold reservedOp
  bv_omega

theorem decode_of_reservedOp (h : reservedOp (opcodeOf cw)) : decode cw = .error (.reservedOpcode (opcodeOf cw)) := by
  have hne : ∀ k : Byte, k ≠ 0x00#8 → k.toNat < 0x0A → opcodeOf cw ≠ k := by
    rintro k hpos hlt rfl
    exact h.elim hpos (Nat.not_le.mpr hlt)
  unfold decode
  iterate 9 rw [if_neg (hne _ (by decide) (by decide))]

theorem decodeF_eq_ok_iff {i : Instr} :
    decodeF cw = .ok i ↔ .frmBuild (cw.extractLsb' 40 8) (cw.extractLsb' 32 8) (cw.extractLsb' 24 8)
      (cw.extractLsb' 16 8) (cw.extractLsb' 8 8) (cw.extractLsb' 0 8) = i :=
  iff_of_eq (Except.ok.injEq _ _)

end

/-! ## Decode and encode -/

theorem singleton_command_inj {cw cw' : CmdWord} :
    ([.command cw] : List Stimulus) = [.command cw'] ↔ cw' = cw := by
  rw [List.singleton_inj, Stimulus.command.injEq, eq_comm]

/-- A word that decodes is the word of the operation it decodes to, with that operation's opcode. -/
theorem operation_of_decode {cw : CmdWord} {i : Instr} (h : decode cw = .ok i) :
    i.isOperation = true ∧ i.opcode = some (opcodeOf cw) ∧ encode i = [.command cw] := by
  rcases opcode_cases (opcodeOf cw) with hop | hop | hop | hop | hop | hop | hop | hop | hop | hop
  · rw [decode_of_crcInit hop] at h
    obtain ⟨hzero, rfl⟩ := decodeZ_eq_ok_iff.mp h
    exact ⟨rfl, congrArg some hop.symm, singleton_command_inj.mpr (eq_wordZ_iff.mpr ⟨hop, hzero⟩)⟩
  · rw [decode_of_crcUpd hop] at h
    obtain ⟨hzero, rfl⟩ := decodeB_eq_ok_iff.mp h
    exact ⟨rfl, congrArg some hop.symm, singleton_command_inj.mpr (eq_wordB_iff.mpr ⟨hop, hzero, rfl⟩)⟩
  · rw [decode_of_crcRd hop] at h
    obtain ⟨hzero, rfl⟩ := decodeZ_eq_ok_iff.mp h
    exact ⟨rfl, congrArg some hop.symm, singleton_command_inj.mpr (eq_wordZ_iff.mpr ⟨hop, hzero⟩)⟩
  · rw [decode_of_fbWr hop] at h
    obtain ⟨hzero, rfl⟩ := decodeXB_eq_ok_iff.mp h
    exact ⟨rfl, congrArg some hop.symm, singleton_command_inj.mpr (eq_wordXB_iff.mpr ⟨hop, hzero, rfl, rfl⟩)⟩
  · rw [decode_of_fbRd hop] at h
    obtain ⟨hzero, rfl⟩ := decodeX_eq_ok_iff.mp h
    exact ⟨rfl, congrArg some hop.symm, singleton_command_inj.mpr (eq_wordX_iff.mpr ⟨hop, hzero, rfl⟩)⟩
  · rw [decode_of_frmStamp hop] at h
    obtain ⟨hzero, rfl⟩ := decodeZ_eq_ok_iff.mp h
    exact ⟨rfl, congrArg some hop.symm, singleton_command_inj.mpr (eq_wordZ_iff.mpr ⟨hop, hzero⟩)⟩
  · rw [decode_of_frmVerify hop] at h
    obtain ⟨hzero, rfl⟩ := decodeZ_eq_ok_iff.mp h
    exact ⟨rfl, congrArg some hop.symm, singleton_command_inj.mpr (eq_wordZ_iff.mpr ⟨hop, hzero⟩)⟩
  · rw [decode_of_frmBuild hop] at h
    obtain rfl := decodeF_eq_ok_iff.mp h
    exact ⟨rfl, congrArg some hop.symm, singleton_command_inj.mpr
      (eq_wordF_iff.mpr ⟨hop, rfl, rfl, rfl, rfl, rfl, rfl⟩)⟩
  · rw [decode_of_frmDecode hop] at h
    obtain ⟨hzero, -, rfl⟩ := decodeD_eq_ok_iff.mp h
    exact ⟨rfl, congrArg some hop.symm, singleton_command_inj.mpr (eq_wordD_iff.mpr ⟨hop, rfl, rfl, hzero, rfl⟩)⟩
  · rw [decode_of_reservedOp hop] at h
    cases h

/-- The word of a well-formed operation decodes to it. -/
theorem decode_of_encode {cw : CmdWord} {i : Instr} (hoperation : i.isOperation = true) (hwf : i.wellFormed = true)
    (henc : encode i = [.command cw]) : decode cw = .ok i := by
  cases i with
  | crcInit | crcRd | frmStamp | frmVerify => cases henc; rfl
  | crcUpd b =>
    obtain ⟨hop, hzero, rfl⟩ := eq_wordB_iff.mp (singleton_command_inj.mp henc)
    rw [decode_of_crcUpd hop]; exact decodeB_eq_ok_iff.mpr ⟨hzero, rfl⟩
  | fbWr i b =>
    obtain ⟨hop, hzero, rfl, rfl⟩ := eq_wordXB_iff.mp (singleton_command_inj.mp henc)
    rw [decode_of_fbWr hop]; exact decodeXB_eq_ok_iff.mpr ⟨hzero, rfl⟩
  | fbRd i =>
    obtain ⟨hop, hzero, rfl⟩ := eq_wordX_iff.mp (singleton_command_inj.mp henc)
    rw [decode_of_fbRd hop]; exact decodeX_eq_ok_iff.mpr ⟨hzero, rfl⟩
  | frmBuild fam code p0 p1 p2 p3 =>
    obtain ⟨hop, rfl, rfl, rfl, rfl, rfl, rfl⟩ := eq_wordF_iff.mp (singleton_command_inj.mp henc)
    rw [decode_of_frmBuild hop]; exact decodeF_eq_ok_iff.mpr rfl
  | frmDecode efam ecode n =>
    obtain ⟨hop, rfl, rfl, hzero, rfl⟩ := eq_wordD_iff.mp (singleton_command_inj.mp henc)
    rw [decode_of_frmDecode hop]; exact decodeD_eq_ok_iff.mpr ⟨hzero, of_decide_eq_true hwf, rfl⟩
  | reqGetsn | rspGetsn | checksumOf | fbLoad | fbDump | getsnReq | getsnRpl => cases hoperation

/-- An operation is presented as one command word (R42, R47). -/
theorem encode_of_isOperation {i : Instr} (h : i.isOperation = true) : ∃ cw, encode i = [.command cw] := by
  cases i with
  | crcInit | crcUpd | crcRd | fbWr | fbRd | frmStamp | frmVerify | frmBuild | frmDecode => exact ⟨_, rfl⟩
  | reqGetsn | rspGetsn | checksumOf | fbLoad | fbDump | getsnReq | getsnRpl => cases h

/-- Settles O11: the one word an operation is encoded as decodes to it. -/
theorem encodedOperationDecodesToItself : Obligations.EncodedOperationDecodesToItself := by
  intro i hoperation hwf
  obtain ⟨cw, henc⟩ := encode_of_isOperation hoperation
  exact ⟨cw, henc, decode_of_encode hoperation hwf henc⟩

/-- Settles O12: the word that decodes is the one its operation is encoded as. -/
theorem decodedWordIsTheOperationsEncoding : Obligations.DecodedWordIsTheOperationsEncoding := by
  intro cw i h
  obtain ⟨hoperation, -, henc⟩ := operation_of_decode h
  exact ⟨hoperation, wellFormed_of_decode h, henc⟩

end Sys2Proof
end

section
/-! The opcode map (30_encoding.md R42): a row selects the words of its opcode that decode, and a word that no row
selects is illegal (R43, R44, 60_exceptions.md R85). -/

namespace Sys2Proof

open Sys2Proof.Machine Sys2Proof.Safety

/-! ## Match and mask -/

/-- Match and mask of a format: an upper part is compared with `op`, a lower one with zero, and what stands between
and below is free. -/
theorem and_mask_eq_iff (k l m n : Nat) {x mask bits : BitVec (k + l + m + n)} {op : BitVec k}
    (hmask : mask = BitVec.allOnes k ++ 0#l ++ BitVec.allOnes m ++ 0#n) (hbits : bits = op ++ 0#l ++ 0#m ++ 0#n) :
    x &&& mask = bits ↔ x.extractLsb' (n + m + l) k = op ∧ x.extractLsb' n m = 0#m := by
  rw [eq_append_iff, extractLsb'_eq_append_and_iff, extractLsb'_eq_append_and_iff] at hmask
  obtain ⟨hop, hfree, hzero, hlow⟩ := hmask
  rw [hbits, eq_append_iff, extractLsb'_eq_append_and_iff, extractLsb'_eq_append_and_iff]
  simp only [BitVec.extractLsb'_and, hop, hfree, hzero, hlow, BitVec.and_allOnes, BitVec.and_zero, and_true, true_and]

section
variable {cw : CmdWord}

theorem OpcodeRow.selects_eq_true_iff {r : OpcodeRow} :
    r.selects cw = true ↔
      cw &&& r.maskBits = r.matchBits ∧ (r.op = 0x09#8 → (cw.extractLsb' 0 4).toNat ≤ Config.frameLen) := by
  simp only [OpcodeRow.selects, Bool.and_eq_true, Bool.or_eq_true, decide_eq_true_iff, bne_iff_ne, imp_iff_not_or]

/-- A row selects the words of its opcode that decode, where its match and mask are the check `p` that the decoder makes
for that opcode. -/
theorem OpcodeRow.selects_iff_of_mask {r : OpcodeRow} {p : Prop} (hop : r.op ≠ 0x09#8)
    (hfits : cw &&& r.maskBits = r.matchBits ↔ opcodeOf cw = r.op ∧ p)
    (hdecode : opcodeOf cw = r.op → ((∃ i, decode cw = .ok i) ↔ p)) :
    r.selects cw = true ↔ opcodeOf cw = r.op ∧ ∃ i, decode cw = .ok i := by
  rw [and_congr_right hdecode, ← hfits, OpcodeRow.selects_eq_true_iff, and_iff_left fun heq => absurd heq hop]

theorem OpcodeRow.selects_iff {r : OpcodeRow} (hr : r ∈ opcodeMap) :
    r.selects cw = true ↔ opcodeOf cw = r.op ∧ ∃ i, decode cw = .ok i := by
  simp only [opcodeMap, List.mem_cons, List.not_mem_nil, or_false] at hr
  rcases hr with rfl | rfl | rfl | rfl | rfl | rfl | rfl | rfl | rfl
  · exact selects_iff_of_mask (by decide) (and_mask_eq_iff 8 0 48 0 rfl rfl) fun hop => by
      simp [decode_of_crcInit hop, decodeZ_eq_ok_iff]
  · exact selects_iff_of_mask (by decide) (and_mask_eq_iff 8 0 40 8 rfl rfl) fun hop => by
      simp [decode_of_crcUpd hop, decodeB_eq_ok_iff]
  · exact selects_iff_of_mask (by decide) (and_mask_eq_iff 8 0 48 0 rfl rfl) fun hop => by
      simp [decode_of_crcRd hop, decodeZ_eq_ok_iff]
  · exact selects_iff_of_mask (by decide) (and_mask_eq_iff 8 0 37 11 rfl rfl) fun hop => by
      simp [decode_of_fbWr hop, decodeXB_eq_ok_iff]
  · exact selects_iff_of_mask (by decide) (and_mask_eq_iff 8 0 45 3 rfl rfl) fun hop => by
      simp [decode_of_fbRd hop, decodeX_eq_ok_iff]
  · exact selects_iff_of_mask (by decide) (and_mask_eq_iff 8 0 48 0 rfl rfl) fun hop => by
      simp [decode_of_frmStamp hop, decodeZ_eq_ok_iff]
  · exact selects_iff_of_mask (by decide) (and_mask_eq_iff 8 0 48 0 rfl rfl) fun hop => by
      simp [decode_of_frmVerify hop, decodeZ_eq_ok_iff]
  · exact selects_iff_of_mask (by decide) (and_mask_eq_iff 8 0 0 48 rfl rfl) fun hop => by
      simp [decode_of_frmBuild hop, decodeF_eq_ok_iff]
  · calc
      _ ↔ (opcodeOf cw = 0x09#8 ∧ cw.extractLsb' 4 28 = 0#28) ∧ (cw.extractLsb' 0 4).toNat ≤ Config.frameLen :=
        selects_eq_true_iff.trans (and_congr (and_mask_eq_iff 8 16 28 4 rfl rfl) (forall_prop_of_true rfl))
      _ ↔ opcodeOf cw = 0x09#8 ∧ ∃ i, decode cw = .ok i := by
        rw [and_assoc]
        exact and_congr_right fun hop => by simp [decode_of_frmDecode hop, decodeD_eq_ok_iff]

/-- A word that decodes has its opcode in the map. -/
theorem exists_row_of_decode {i : Instr} (h : decode cw = .ok i) : ∃ r ∈ opcodeMap, opcodeOf cw = r.op := by
  have hlisted : ¬ reservedOp (opcodeOf cw) := fun hreserved => by
    rw [decode_of_reservedOp hreserved] at h
    cases h
  simpa [opcodeMap, hlisted] using opcode_cases (opcodeOf cw)

theorem opcodeMap_op_injective : ∀ r ∈ opcodeMap, ∀ r' ∈ opcodeMap, r'.op = r.op → r' = r := by decide

/-! ## What a word does when it is presented -/

theorem runsAs_of_decode {i : Instr} (h : decode cw = .ok i) : runsAs cw i :=
  fun s rest => step_pending_cons_of_ok (p := .command cw) h rest s

theorem answersIllegal_of_decode {e : DecodeError} (h : decode cw = .error e) : answersIllegal cw := by
  intro s rest
  have hdecode : (Stimulus.command cw).decode = .error e := h
  rw [step_pending_cons, present_of_error hdecode]
  rfl

end

/-- Settles O10: a word that decodes is selected by the row of its opcode alone; one that does not, by none. -/
theorem everyWordIsOneRowOrIllegal : Obligations.EveryWordIsOneRowOrIllegal := by
  intro cw
  cases hdecode : decode cw with
  | ok i =>
    obtain ⟨-, hopcode, -⟩ := operation_of_decode hdecode
    obtain ⟨r, hr, hop⟩ := exists_row_of_decode hdecode
    refine .inl ⟨r, hr, (OpcodeRow.selects_iff hr).mpr ⟨hop, i, hdecode⟩, fun r' hr' hselects => ?_,
      i, hop ▸ hopcode, wellFormed_of_decode hdecode, runsAs_of_decode hdecode⟩
    obtain ⟨hop', -⟩ := (OpcodeRow.selects_iff hr').mp hselects
    exact opcodeMap_op_injective r hr r' hr' (hop'.symm.trans hop)
  | error e =>
    refine .inr ⟨fun r hr => Bool.eq_false_iff.mpr fun hselects => ?_, answersIllegal_of_decode hdecode⟩
    obtain ⟨-, i, hi⟩ := (OpcodeRow.selects_iff hr).mp hselects
    rw [hdecode] at hi
    cases hi

/-- Settles O14: the opcode of the word is the reserved one, and no format is looked at. -/
theorem reservedOpcodesAnswerIllegal : Obligations.ReservedOpcodesAnswerIllegal := by
  intro op arg hreserved
  have hop : opcodeOf (op ++ arg) = op := BitVec.extractLsb'_append_eq_left
  exact answersIllegal_of_decode (decode_of_reservedOp (hop.symm ▸ hreserved))

/-- Settles O3: each of the nine words decodes, by computation, to the instruction written beside it. -/
theorem exampleWordsRunAsWritten : Obligations.ExampleWordsRunAsWritten :=
  ⟨runsAs_of_decode rfl, runsAs_of_decode rfl, runsAs_of_decode rfl, runsAs_of_decode rfl, runsAs_of_decode rfl,
    runsAs_of_decode rfl, runsAs_of_decode rfl, runsAs_of_decode rfl, runsAs_of_decode rfl⟩

/-! ## The wire frames (R32) -/

/-- Bytes 20 02 in front, as match and mask of GETSN.RPL ask. -/
theorem fits_getsnRpl_iff {w : FrameWord} :
    w &&& 0xFFFF000000000000#64 = 0x2002000000000000#64 ↔
      w.extractLsb' 56 8 = Config.getsnFamily ∧ w.extractLsb' 48 8 = Config.getsnCode :=
  calc w &&& 0xFFFF000000000000#64 = 0x2002000000000000#64
      ↔ w.extractLsb' 48 16 = Config.getsnFamily ++ Config.getsnCode ∧ w.extractLsb' 48 0 = 0#0 :=
        and_mask_eq_iff 16 0 0 48 rfl rfl
    _ ↔ w.extractLsb' 48 16 = Config.getsnFamily ++ Config.getsnCode := and_iff_left (Subsingleton.elim _ _)
    _ ↔ _ := extractLsb'_eq_append_iff 8 8

/-- The frame of a GETSN.RPL is read back as it. -/
theorem decodeReceived_eq_ok_of_frame {w : FrameWord} {serial : Data} {cc tt : Byte}
    (h : w = Config.getsnFamily ++ Config.getsnCode ++ serial ++ cc ++ tt) :
    decodeReceived w = .ok (.getsnRpl serial cc tt) := by
  obtain ⟨hfam, hcode, rfl, rfl, rfl⟩ := eq_getsnRplWord_iff.mp h
  exact decodeReceived_eq_ok_iff.mpr ⟨⟨hfam, hcode⟩, rfl⟩

/-- Settles O13: the request by computation; a reply by its fields, both ways. -/
theorem wireFramesReadBack : Obligations.WireFramesReadBack := by
  refine ⟨rfl, decodeSent_eq_ok_iff.mpr ⟨rfl, rfl⟩, fun serial cc tt => ⟨_, rfl, ?_, ?_⟩, fun w hfits => ?_⟩
  · exact decodeReceived_eq_ok_of_frame rfl
  · obtain ⟨hfam, hcode, -⟩ := eq_getsnRplWord_iff.mp
      (rfl : Config.getsnFamily ++ Config.getsnCode ++ serial ++ cc ++ tt = _)
    exact fits_getsnRpl_iff.mpr ⟨hfam, hcode⟩
  · obtain ⟨hfam, hcode⟩ := fits_getsnRpl_iff.mp hfits
    have hw := eq_getsnRplWord_iff.mpr ⟨hfam, hcode, rfl, rfl, rfl⟩
    exact ⟨_, decodeReceived_eq_ok_of_frame hw, by rw [encode, ← hw]⟩

end Sys2Proof
end

section
/-! The pseudo-instructions and the wire frames as one effect on the state (30_encoding.md R32, R47,
42_frame_transaction.md R72, R76). -/

namespace Sys2Proof.Machine

open Sys2Proof.Safety

/-! ## CHECKSUM and FB.LOAD -/

/-- Settles O22: CRC.INIT answers once, each CRC.UPD once, and CRC.RD the value that the bytes left in `ACC`. -/
theorem checksumPseudoAnswersTheChecksum : Obligations.ChecksumPseudoAnswersTheChecksum := by
  intro bs s
  obtain ⟨rs, hlen, hupd⟩ := State.crcUpdAll_spec bs s.crcInit
  refine ⟨rs ++ [resp .ok (zext32 Config.init)], by rw [List.length_append, hlen]; rfl, ?_⟩
  calc exec (.checksumOf bs) s = .next (s.crcInit.crcUpdAll bs).crcRd := rfl
    _ = _ := by rw [hupd, List.append_assoc]; rfl

/-- A load leaves at each of its indices the byte it has for it (30_encoding.md R47). -/
theorem State.fbLoadFrom_loads {k : Nat} {bs : List Byte} (hlen : k + bs.length ≤ 8) (s : State) {j : FbIndex}
    {b : Byte} (hk : k ≤ j.toNat) (hb : bs[j.toNat - k]? = some b) : octetGet (s.fbLoadFrom k bs).fb j = b := by
  induction bs generalizing k s with
  | nil => cases hb
  | cons c bs ih =>
    rw [List.length_cons] at hlen
    rcases Nat.eq_or_lt_of_le hk with heq | hlt
    · have hat : BitVec.ofNat 3 k = j := BitVec.eq_of_toNat_eq (by rw [toNat_ofNat_fbIndex (by omega), heq])
      rw [heq, Nat.sub_self, List.getElem?_cons_zero, Option.some.injEq] at hb
      rw [State.fbLoadFrom, (State.fbLoadFrom_outside (by omega) _ (.inl (by omega))).1, hat, hb]
      exact octetGet_set_same _ _ _
    · have hsub : j.toNat - k = j.toNat - (k + 1) + 1 := by omega
      rw [hsub, List.getElem?_cons_succ] at hb
      exact ih (by omega) _ hlt hb

/-- Settles O29: what a load writes, marks and leaves alone; another length is refused. -/
theorem fbLoadFillsFromIndexZero : Obligations.FbLoadFillsFromIndexZero := by
  refine ⟨fun bs s hpos hle => ?_, fun bs s hlen => if_neg (by show ¬(_ ∧ bs.length ≤ 8); omega)⟩
  have hlen : 0 + bs.length ≤ 8 := by omega
  obtain ⟨fb, written, heq⟩ := State.fbLoadFrom_spec 0 bs s
  refine ⟨s.fbLoadFrom 0 bs, execFbLoad_eq_next_iff.mpr ⟨⟨hpos, hle⟩, rfl⟩, fun k b hb => ?_, fun k hk => ?_, ?_⟩
  · have hlt : k.toNat < bs.length := (List.getElem?_eq_some_iff.mp hb).1
    exact ⟨State.fbLoadFrom_marks hlen s (Nat.zero_le _) (by omega),
      State.fbLoadFrom_loads hlen s (Nat.zero_le _) hb⟩
  · exact State.fbLoadFrom_outside hlen s (.inr (by omega))
  · rw [heq]
    exact ⟨rfl, rfl, rfl, rfl, rfl⟩

/-! ## FB.DUMP and GETSN.REQ -/

@[simp] theorem State.octetGet_dumpedFrame (s : State) (k : FbIndex) : octetGet s.dumpedFrame k = s.dumpedByte k := by
  revert k; rw [forall_fbIndex]; exact ⟨rfl, rfl, rfl, rfl, rfl, rfl, rfl, rfl⟩

/-- The read of byte `k` comes after `k` others. -/
theorem State.dumpedByte_eq (s : State) (k : FbIndex) :
    s.dumpedByte k = if octetGet s.written k then octetGet s.fb k else Config.freeByte (s.draws + k.toNat) k := rfl

/-- Settles O30: the frame of the statement is the dumped one. -/
theorem fbDumpAnswersTheFrame : Obligations.FbDumpAnswersTheFrame := by
  intro s F hF
  obtain rfl : F = s.dumpedFrame := octet_ext fun k => by rw [hF, State.octetGet_dumpedFrame, State.dumpedByte_eq]
  exact congrArg Host.Outcome.next s.fbDump_eq

/-- Where every byte has been written, the stored frame is answered and sent. -/
theorem State.dumpAndSend_of_written {s : State} (h : s.written = octetFill true) :
    s.dumpAndSend = { s with
      draws := s.draws + 8
      responses := (octetList s.fb).reverse.map (fun b => resp .ok (zext32 b)) ++ s.responses
      sent := s.fb :: s.sent } := by
  rw [State.dumpAndSend, State.fbDump_eq, State.dumpedFrame_of_written h]
  simp [State.dumpedByte_eq, h, octetList]

set_option maxRecDepth 20000 in
/-- The checksum of the request (42_frame_transaction.md R71). -/
theorem checksum_getsnRequest :
    checksum [Config.getsnFamily, Config.getsnCode, 0#8, 0#8, 0#8, 0#8] = 0x50#8 := by decide

/-- REQ.GETSN leaves the request in `FB` (30_encoding.md R32, R47). -/
theorem State.reqGetsn_eq (s : State) :
    s.reqGetsn = { s with
      fb := ⟨Config.getsnFamily, Config.getsnCode, 0#8, 0#8, 0#8, 0#8, 0x50#8, Config.terminator⟩
      written := octetFill true
      responses := [resp .ok (zext32 0x50#8)] ++ s.responses } := by
  rw [State.reqGetsn, State.frmBuild, buildFrame_eq, checksum_getsnRequest]
  rfl

/-- The responses of FRM.BUILD and FB.DUMP for the request, newest first. -/
theorem dumped_getsnRequest :
    (octetList (⟨Config.getsnFamily, Config.getsnCode, 0#8, 0#8, 0#8, 0#8, 0x50#8, Config.terminator⟩ :
        Frame)).reverse.map (fun b => resp .ok (zext32 b)) ++ [resp .ok (zext32 0x50#8)] =
      [0x00000000FF#40, 0x0000000050#40, 0#40, 0#40, 0#40, 0#40, 0x0000000002#40, 0x0000000020#40,
        0x0000000050#40] := rfl

/-- Settles O43: the request is built, and the frame it leaves is dumped and sent. -/
theorem getsnReqSendsTheRequest : Obligations.GetsnReqSendsTheRequest := by
  intro s
  calc exec .getsnReq s = .next s.reqGetsn.dumpAndSend := rfl
    _ = _ := by
      simp only [State.reqGetsn_eq, State.dumpAndSend_of_written, ← List.append_assoc, dumped_getsnRequest]
      rfl

/-! ## FRM.DECODE and GETSN.RPL -/

/-- The four ways a reply is decoded, each with what led to it (42_frame_transaction.md R72). -/
theorem decodeReply_cases (F : Frame) (n : BitVec 4) (efam ecode : Byte) :
    (n.toNat < 8 ∧ decodeReply F n efam ecode = .shortRead 0x08#8 (n.setWidth 8)) ∨
    ((F.b0 ≠ efam ∨ F.b1 ≠ ecode) ∧ decodeReply F n efam ecode = .unexpectedReply efam ecode F.b0 F.b1) ∨
    (frameCrc F ≠ F.b6 ∧ decodeReply F n efam ecode = .checksum (frameCrc F) F.b6) ∨
    decodeReply F n efam ecode = .value (be32 F.b2 F.b3 F.b4 F.b5) := by
  unfold decodeReply
  split_ifs with hshort hecho hverify
  · exact .inl ⟨hshort, rfl⟩
  · exact .inr (.inl ⟨hecho, rfl⟩)
  · exact .inr (.inr (.inl ⟨beq_eq_false_iff_ne.mp hverify, rfl⟩))
  · exact .inr (.inr (.inr rfl))

/-- A whole reply with the expected command bytes is judged by its checksum (42_frame_transaction.md R72). -/
theorem decodeReply_of_echo (efam ecode b2 b3 b4 b5 cc tt : Byte) :
    decodeReply ⟨efam, ecode, b2, b3, b4, b5, cc, tt⟩ 8#4 efam ecode =
      if cc = checksum [efam, ecode, b2, b3, b4, b5] then .value (be32 b2 b3 b4 b5)
      else .checksum (checksum [efam, ecode, b2, b3, b4, b5]) cc := by
  by_cases h : cc = checksum [efam, ecode, b2, b3, b4, b5]
  · simp [decodeReply, verify, frameCrc, h]
  · simp [decodeReply, verify, frameCrc, h, Ne.symm h]

theorem State.frmDecode_of_le {n : BitVec 4} (h : n.toNat ≤ Config.frameLen) (efam ecode : Byte) (s : State) :
    s.frmDecode efam ecode n = s.answerDecode (decodeReply s.fbFrame n efam ecode) := if_pos h

/-- A received frame stands in `FB`, and what is decoded is that frame (42_frame_transaction.md R76 steps 5 to 7). -/
theorem State.receiveReply_eq (F : Frame) (s : State) :
    s.receiveReply F = State.answerDecode
      { s with fb := F, written := octetFill true, responses := List.replicate 8 (resp .ok 0#32) ++ s.responses }
      (decodeReply F 8#4 Config.getsnFamily Config.getsnCode) := by
  rw [State.receiveReply, State.fbLoadFrom_frame, State.rspGetsn, State.frmDecode_of_le (by decide),
    State.fbFrame_of_written rfl]

/-- The status in front of four bytes. -/
theorem resp_be32 (st : Status) (b0 b1 b2 b3 : Byte) :
    resp st (be32 b0 b1 b2 b3) = st.code ++ b0 ++ b1 ++ b2 ++ b3 := by
  apply BitVec.eq_of_toNat_eq
  simp only [resp, be32, toNat_append_eq_mul_add]
  omega

/-- The status in front of two bytes in the lower half of DATA. -/
theorem resp_append_append (st : Status) (h : BitVec 16) (e a : Byte) :
    resp st (h ++ e ++ a) = st.code ++ h ++ e ++ a := by
  apply BitVec.eq_of_toNat_eq
  simp only [resp, toNat_append_eq_mul_add]
  omega

/-- The bytes of a value are the bytes it was put together from (20_memory.md R23, R24). -/
theorem be32Byte_append (b0 b1 b2 b3 : Byte) :
    be32Byte (b0 ++ b1 ++ b2 ++ b3) 0 = b0 ∧ be32Byte (b0 ++ b1 ++ b2 ++ b3) 1 = b1 ∧
      be32Byte (b0 ++ b1 ++ b2 ++ b3) 2 = b2 ∧ be32Byte (b0 ++ b1 ++ b2 ++ b3) 3 = b3 :=
  ((eq_append_iff 24 8).trans <| (extractLsb'_eq_append_and_iff 16 8).trans <| extractLsb'_eq_append_and_iff 8 8).mp rfl

/-- Settles O44: the reply is loaded, its command bytes are the expected ones, and its checksum decides. -/
theorem getsnRplDecodesTheReply : Obligations.GetsnRplDecodesTheReply := by
  rintro s s3 s2 s1 s0 cc tt crc rfl
  obtain ⟨h3, h2, h1, h0⟩ := be32Byte_append s3 s2 s1 s0
  have hok : (0x00#8 ++ s3 ++ s2 ++ s1 ++ s0 : RespWord) = resp .ok (be32 s3 s2 s1 s0) := (resp_be32 .ok ..).symm
  have hbad (crc : Byte) : (0x03#8 ++ 0x0000#16 ++ crc ++ cc : RespWord) = resp .checksum (0#16 ++ crc ++ cc) :=
    (resp_append_append .checksum ..).symm
  rw [hok, hbad, exec, execGetsnRpl, h3, h2, h1, h0, State.receiveReply_eq, decodeReply_of_echo]
  split_ifs <;> rfl

/-! ## The terminator (R45 (a)) -/

/-- Decoding a reply does not look at the terminator. -/
theorem decodeReply_terminator (F : Frame) (x : Byte) (n : BitVec 4) (efam ecode : Byte) :
    decodeReply { F with b7 := x } n efam ecode = decodeReply F n efam ecode := rfl

theorem verify_terminator (F : Frame) (x : Byte) : verify { F with b7 := x } = verify F := rfl

/-- Two states that agree on FB[0] to FB[6], on the draws and on the responses. -/
structure AgreeButTerminator (s t : State) : Prop where
  bytes : ∀ k, k ≠ 7#3 → octetGet t.fb k = octetGet s.fb k ∧ octetGet t.written k = octetGet s.written k
  draws : t.draws = s.draws
  responses : t.responses = s.responses

theorem AgreeButTerminator.fbFrame_eq {s t : State} (h : AgreeButTerminator s t) :
    t.fbFrame = { s.fbFrame with b7 := t.fbByte 7#3 } := by
  have hbyte : ∀ k, k ≠ 7#3 → t.fbByte k = s.fbByte k := fun k hk => by
    obtain ⟨hfb, hwritten⟩ := h.bytes k hk
    rw [State.fbByte, State.fbByte, hfb, hwritten, h.draws]
  rw [State.fbFrame, hbyte 0#3 (by decide), hbyte 1#3 (by decide), hbyte 2#3 (by decide), hbyte 3#3 (by decide),
    hbyte 4#3 (by decide), hbyte 5#3 (by decide), hbyte 6#3 (by decide)]
  rfl

/-- What FRM.DECODE answers depends on the result alone. -/
theorem State.answerDecode_responses_congr {s t : State} (h : t.responses = s.responses) (r : DecodeResult) :
    (t.answerDecode r).responses = (s.answerDecode r).responses := by
  cases r <;> exact congrArg (_ :: ·) h

theorem AgreeButTerminator.frmDecode_responses {s t : State} (h : AgreeButTerminator s t) (efam ecode : Byte)
    (n : BitVec 4) : (t.frmDecode efam ecode n).responses = (s.frmDecode efam ecode n).responses := by
  unfold State.frmDecode
  split
  · rw [h.fbFrame_eq, decodeReply_terminator]
    exact State.answerDecode_responses_congr h.responses _
  · exact congrArg (_ :: ·) h.responses

theorem AgreeButTerminator.frmVerify_responses {s t : State} (h : AgreeButTerminator s t) :
    t.frmVerify.responses = s.frmVerify.responses := by
  rw [State.frmVerify, h.fbFrame_eq, verify_terminator]
  exact congrArg (_ :: ·) h.responses

/-- Settles O37: neither `verify` nor `decode` looks at byte 7, and FRM.BUILD ends the frame with 0xFF. -/
theorem terminatorIsNotExamined : Obligations.TerminatorIsNotExamined := by
  constructor
  · rintro s t i hi hbytes hdraws hresponses
    have hagree : AgreeButTerminator s t := ⟨hbytes, hdraws, hresponses⟩
    rcases hi with rfl | ⟨efam, ecode, n, rfl⟩ | ⟨n, rfl⟩
    · exact ⟨_, _, rfl, rfl, hagree.frmVerify_responses⟩
    · exact ⟨_, _, rfl, rfl, hagree.frmDecode_responses efam ecode n⟩
    · exact ⟨_, _, rfl, rfl, hagree.frmDecode_responses _ _ n⟩
  · rintro s t fam code p0 p1 p2 p3 h
    cases h
    exact ⟨rfl, rfl⟩

end Sys2Proof.Machine
end

section
/-! Only legal response words come out of the block (30_encoding.md R40, 60_exceptions.md R81 to R85). -/

namespace Sys2Proof.Machine

open Sys2Proof.Safety

/-! ## The response words of each STATUS -/

@[simp] theorem statusOf_resp (st : Status) (d : Data) : statusOf (resp st d) = st.code :=
  BitVec.extractLsb'_append_eq_left

@[simp] theorem dataOf_resp (st : Status) (d : Data) : dataOf (resp st d) = d :=
  BitVec.extractLsb'_append_eq_right

theorem legalResponse_ok (d : Data) : legalResponse (resp .ok d) = true := by
  simp [legalResponse, Status.code]

theorem legalResponse_illegalCmd : legalResponse (resp .illegalCmd 0#32) = true := by decide

/-- SHORT_READ is legal where fewer than the 8 bytes asked for came (60_exceptions.md R81). -/
theorem legalResponse_shortRead {n : BitVec 4} (h : n.toNat < 8) :
    legalResponse (resp .shortRead (0#16 ++ 0x08#8 ++ n.setWidth 8)) = true := by
  have hdata : (0#16 ++ 0x08#8 ++ n.setWidth 8).toNat = 0x800 + n.toNat := by
    simp only [toNat_append_eq_mul_add, BitVec.toNat_setWidth, BitVec.toNat_ofNat]
    omega
  have hlow : 0x800 ≤ (0#16 ++ 0x08#8 ++ n.setWidth 8).toNat := by omega
  have hhigh : (0#16 ++ 0x08#8 ++ n.setWidth 8).toNat < 0x808 := by omega
  simp only [legalResponse, statusOf_resp, dataOf_resp, decide_eq_true hlow, decide_eq_true hhigh]
  rfl

/-- UNEXPECTED_REPLY is legal where a command byte differs (60_exceptions.md R82). -/
theorem legalResponse_unexpectedReply {efam ecode afam acode : Byte} (h : afam ≠ efam ∨ acode ≠ ecode) :
    legalResponse (resp .unexpectedReply (be32 efam ecode afam acode)) = true := by
  obtain ⟨h3, h2, h1, h0⟩ := be32Byte_append efam ecode afam acode
  have hactual : (be32 efam ecode afam acode).extractLsb' 0 16 = afam ++ acode :=
    (extractLsb'_eq_append_iff 8 8).mpr ⟨h1, h0⟩
  have hne : (be32 efam ecode afam acode).extractLsb' 16 16 ≠ (be32 efam ecode afam acode).extractLsb' 0 16 := by
    intro heq
    obtain ⟨hfam, hcode⟩ := (extractLsb'_eq_append_iff 8 8).mp (heq.trans hactual)
    exact h.elim (fun hne => hne (hfam.symm.trans h3)) (fun hne => hne (hcode.symm.trans h2))
  simp [legalResponse, hne, Status.code]

/-- CHECKSUM is legal where the checksums differ (60_exceptions.md R83). -/
theorem legalResponse_checksum {expected actual : Byte} (h : expected ≠ actual) :
    legalResponse (resp .checksum (0#16 ++ expected ++ actual)) = true := by
  obtain ⟨hupper, hexpected, hactual⟩ := (eq_append_iff 24 8).trans (extractLsb'_eq_append_and_iff 16 8) |>.mp
    (rfl : 0#16 ++ expected ++ actual = _)
  have hlow : (0#16 ++ expected ++ actual).extractLsb' 8 8 ≠ (0#16 ++ expected ++ actual).extractLsb' 0 8 := by
    rwa [hexpected, hactual]
  simp [legalResponse, hupper, hlow, Status.code]

/-! ## The responses of the shared operations -/

/-- A legal response keeps the invariant. -/
theorem responsesLegal_respond {st : Status} {d : Data} (h : legalResponse (resp st d) = true) {s : State}
    (hs : responsesLegal s) : responsesLegal (s.respond st d) :=
  List.forall_mem_cons.mpr ⟨h, hs⟩

theorem responsesLegal_respond_ok (d : Data) {s : State} (hs : responsesLegal s) : responsesLegal (s.respond .ok d) :=
  responsesLegal_respond (legalResponse_ok d) hs

theorem responsesLegal_crcUpdAll (bs : List Byte) {s : State} (hs : responsesLegal s) :
    responsesLegal (s.crcUpdAll bs) := by
  induction bs generalizing s with
  | nil => exact hs
  | cons b bs ih => exact ih (responsesLegal_respond_ok _ hs)

theorem responsesLegal_fbLoadFrom (k : Nat) (bs : List Byte) {s : State} (hs : responsesLegal s) :
    responsesLegal (s.fbLoadFrom k bs) := by
  induction bs generalizing k s with
  | nil => exact hs
  | cons b bs ih => exact ih (k + 1) (responsesLegal_respond_ok _ hs)

theorem responsesLegal_fbRdAll (is : List FbIndex) {s : State} (hs : responsesLegal s) :
    responsesLegal (s.fbRdAll is) := by
  induction is generalizing s with
  | nil => exact hs
  | cons i is ih => exact ih (responsesLegal_respond_ok _ hs)

/-- FRM.DECODE: each error is delivered with the context that led to it (42_frame_transaction.md R72, R73). -/
theorem responsesLegal_frmDecode (efam ecode : Byte) (n : BitVec 4) {s : State} (hs : responsesLegal s) :
    responsesLegal (s.frmDecode efam ecode n) := by
  unfold State.frmDecode
  split
  · rcases decodeReply_cases s.fbFrame n efam ecode with ⟨hn, heq⟩ | ⟨hecho, heq⟩ | ⟨hcrc, heq⟩ | heq <;> rw [heq]
    · exact responsesLegal_respond (legalResponse_shortRead hn) hs
    · exact responsesLegal_respond (legalResponse_unexpectedReply hecho) hs
    · exact responsesLegal_respond (legalResponse_checksum hcrc) hs
    · exact responsesLegal_respond_ok _ hs
  · exact responsesLegal_respond legalResponse_illegalCmd hs

theorem responsesLegal_receiveReply (F : Frame) {s : State} (hs : responsesLegal s) :
    responsesLegal (s.receiveReply F) :=
  responsesLegal_frmDecode _ _ _ (responsesLegal_fbLoadFrom _ _ hs)

theorem State.dumpAndSend_responses (s : State) : s.dumpAndSend.responses = (s.fbRdAll fbIndices).responses := rfl

theorem responsesLegal_dumpAndSend {s : State} (hs : responsesLegal s) : responsesLegal s.dumpAndSend := by
  rw [responsesLegal, State.dumpAndSend_responses]
  exact responsesLegal_fbRdAll fbIndices hs

/-! ## Every step -/

theorem responsesLegal_exec {i : Instr} {s t : State} (h : exec i s = .next t) (hs : responsesLegal s) :
    responsesLegal t := by
  cases i with
  | crcInit | crcUpd | crcRd | fbWr | fbRd | frmStamp | frmVerify | frmBuild | reqGetsn =>
    cases h; exact responsesLegal_respond_ok _ hs
  | frmDecode efam ecode n => cases h; exact responsesLegal_frmDecode efam ecode n hs
  | rspGetsn n => cases h; exact responsesLegal_frmDecode _ _ n hs
  | checksumOf bs =>
    cases h
    exact responsesLegal_respond_ok _ (responsesLegal_crcUpdAll bs (responsesLegal_respond_ok _ hs))
  | fbLoad bs =>
    obtain ⟨-, rfl⟩ := execFbLoad_eq_next_iff.mp h
    exact responsesLegal_fbLoadFrom 0 bs hs
  | fbDump => cases h; exact responsesLegal_fbRdAll fbIndices hs
  | getsnReq => cases h; exact responsesLegal_dumpAndSend (responsesLegal_respond_ok _ hs)
  | getsnRpl serial cc tt => cases h; exact responsesLegal_receiveReply _ hs

theorem responsesLegal_presentOther (p : Stimulus) {s : State} (hs : responsesLegal s) :
    responsesLegal (s.presentOther p) := by
  cases p with
  | command cw => exact responsesLegal_respond legalResponse_illegalCmd hs
  | sendFrame w => exact responsesLegal_dumpAndSend (responsesLegal_fbLoadFrom _ _ hs)
  | receiveFrame w => exact responsesLegal_receiveReply _ hs
  | reset => exact hs

theorem responsesLegal_present {p : Stimulus} {s t : State} (h : present p s = .next t) (hs : responsesLegal s) :
    responsesLegal t := by
  cases hp : p.decode with
  | ok i => rw [present_of_ok hp] at h; exact responsesLegal_exec h hs
  | error e => rw [present_of_error hp] at h; cases h; exact responsesLegal_presentOther p hs

/-- Settles O7: whatever is presented, the responses it adds are legal; with nothing presented there is none. -/
theorem responsesStayLegal : Obligations.ResponsesStayLegal := by
  intro s t hs h
  cases hpending : s.pending with
  | nil => rw [step_of_pending_nil hpending] at h; cases h; exact hs
  | cons p rest =>
    have hpresent : present p { s with pending := rest } = .next t := by rwa [step, hpending] at h
    exact responsesLegal_present hpresent hs

/-- Settles O8: there is no response at reset. -/
theorem responsesLegalAtReset : Obligations.ResponsesLegalAtReset := fun _ h => nomatch h

end Sys2Proof.Machine
end

section
/-! One response for each command word (30_encoding.md R40), and an instruction is the run of the items it is presented
as (30_encoding.md R47). -/

namespace Sys2Proof.Machine

open Sys2Proof.Safety

/-! ## One response for each command word -/

/-- An operation answers one response word, takes nothing from the stream and sends nothing. -/
theorem exec_operation_responds {i : Instr} (h : i.isOperation = true) (s : State) :
    ∃ t rw, exec i s = .next t ∧ t.pending = s.pending ∧ t.responses = rw :: s.responses ∧ t.sent = s.sent := by
  cases i with
  | crcInit | crcUpd | crcRd | fbWr | fbRd | frmStamp | frmVerify | frmBuild => exact ⟨_, _, rfl, rfl, rfl, rfl⟩
  | frmDecode efam ecode n =>
    obtain ⟨rw, d, -, heq⟩ := State.frmDecode_spec efam ecode n s
    exact ⟨_, rw, congrArg Host.Outcome.next heq, rfl, rfl, rfl⟩
  | reqGetsn | rspGetsn | checksumOf | fbLoad | fbDump | getsnReq | getsnRpl => cases h

/-- Settles O5: a word that decodes is an operation; any other is answered ILLEGAL_CMD. -/
theorem oneResponseForEveryCommandWord : Obligations.OneResponseForEveryCommandWord := by
  intro s cw rest
  cases h : decode cw with
  | ok i =>
    obtain ⟨hoperation, -, -⟩ := operation_of_decode h
    rw [runsAs_of_decode h]
    exact exec_operation_responds hoperation _
  | error e =>
    rw [answersIllegal_of_decode h]
    exact ⟨_, _, rfl, rfl, rfl, rfl⟩

/-- Settles O6, by induction on the words: the first is answered by O5, and the rest from the state it leaves. -/
theorem aStreamOfWordsIsAnsweredWordByWord : Obligations.AStreamOfWordsIsAnsweredWordByWord := by
  intro cws
  induction cws with
  | nil => exact fun s rest => ⟨_, [], rfl, rfl, rfl, rfl, rfl⟩
  | cons cw cws ih =>
    intro s rest
    obtain ⟨u, rw, hstep, hpending, hresponses, hsent⟩ := oneResponseForEveryCommandWord s cw (cws.map .command ++ rest)
    obtain ⟨t, rs, hrun, hrest, hlen, hresponses', hsent'⟩ := ih u rest
    rw [← hpending] at hrun
    refine ⟨t, rs ++ [rw], (core_run_succ_of_step hstep cws.length).trans hrun, hrest, ?_, ?_, hsent'.trans hsent⟩
    · rw [List.length_append, hlen]; rfl
    · rw [hresponses', hresponses, List.append_assoc]; rfl

/-! ## Several items, one after another -/

/-- An instruction does not look at what is presented next, and leaves it. -/
theorem exec_withPending {i : Instr} {s t : State} (h : exec i s = .next t) (rest : List Stimulus) :
    exec i { s with pending := rest } = .next { t with pending := rest } := by
  simpa only [State.beside, List.append_nil] using exec_beside h rest [] []

/-- Instructions that each have one item of their own are executed by running those items. -/
theorem core_run_items {is : List Instr} (his : ∀ i ∈ is, ∃ p, encode i = [p] ∧ p.decode = .ok i) (s : State)
    (rest : List Stimulus) :
    Sys2Proof.core.run (is.flatMap encode).length { s with pending := is.flatMap encode ++ rest } =
      execAll is { s with pending := rest } := by
  induction is generalizing s with
  | nil => rfl
  | cons i is ih =>
    obtain ⟨⟨p, henc, hdecode⟩, htail⟩ := List.forall_mem_cons.mp his
    obtain ⟨t, ht⟩ := exec_completes (p.wellFormed_of_decode hdecode) s
    have hstep : step { s with pending := p :: (is.flatMap encode ++ rest) } =
        .next { t with pending := is.flatMap encode ++ rest } :=
      (step_pending_cons_of_ok hdecode _ s).trans (exec_withPending ht _)
    rw [List.flatMap_cons, henc, execAll, exec_withPending ht rest]
    exact (core_run_succ_of_step hstep _).trans (ih htail t)

/-! ## The expansions (R47) -/

/-- The operations `FB.WR k, b0; FB.WR k+1, b1; ..`. -/
def loadInstrs : Nat → List Byte → List Instr
  | _, [] => []
  | k, b :: bs => .fbWr (BitVec.ofNat 3 k) b :: loadInstrs (k + 1) bs

/-- What an instruction expands to: a pseudo-instruction to its operations, any other to itself (R47). -/
def expansion : Instr → List Instr
  | .reqGetsn => [.frmBuild Config.getsnFamily Config.getsnCode 0#8 0#8 0#8 0#8]
  | .rspGetsn n => [.frmDecode Config.getsnFamily Config.getsnCode n]
  | .checksumOf bs => .crcInit :: bs.map .crcUpd ++ [.crcRd]
  | .fbLoad bs => loadInstrs 0 bs
  | .fbDump => fbIndices.map .fbRd
  | i => [i]

theorem loadWords_eq_flatMap (k : Nat) (bs : List Byte) : loadWords k bs = (loadInstrs k bs).flatMap encode := by
  induction bs generalizing k with
  | nil => rfl
  | cons b bs ih => exact congrArg _ (ih (k + 1))

theorem flatMap_encode_crcUpd (bs : List Byte) :
    (bs.map .crcUpd).flatMap encode = bs.map fun b => .command (wordB 0x02#8 b) := by
  induction bs with
  | nil => rfl
  | cons b bs ih => exact congrArg _ ih

/-- The items of an instruction are those of its expansion. -/
theorem encode_eq_flatMap_expansion (i : Instr) : encode i = (expansion i).flatMap encode := by
  cases i with
  | fbLoad bs => exact loadWords_eq_flatMap 0 bs
  | checksumOf bs => rw [encode, ← flatMap_encode_crcUpd, expansion, List.flatMap_append]; rfl
  | _ => rfl

theorem execAll_append_of_next {is js : List Instr} {s t : State} (h : execAll is s = .next t) :
    execAll (is ++ js) s = execAll js t := by
  induction is generalizing s with
  | nil => cases h; rfl
  | cons i is ih =>
    obtain ⟨u, hu, hrest⟩ := execAll_cons_eq_next_iff.mp h
    rw [List.cons_append, execAll, hu]
    exact ih hrest

theorem execAll_crcUpd (bs : List Byte) (s : State) : execAll (bs.map .crcUpd) s = .next (s.crcUpdAll bs) := by
  induction bs generalizing s with
  | nil => rfl
  | cons b bs ih => exact ih (s.crcUpd b)

theorem execAll_loadInstrs (k : Nat) (bs : List Byte) (s : State) :
    execAll (loadInstrs k bs) s = .next (s.fbLoadFrom k bs) := by
  induction bs generalizing k s with
  | nil => rfl
  | cons b bs ih => exact ih (k + 1) (s.fbWr (BitVec.ofNat 3 k) b)

theorem execAll_fbRd (is : List FbIndex) (s : State) : execAll (is.map .fbRd) s = .next (s.fbRdAll is) := by
  induction is generalizing s with
  | nil => rfl
  | cons i is ih => exact ih (s.fbRd i)

theorem execAll_singleton {i : Instr} (h : i.wellFormed = true) (s : State) : execAll [i] s = exec i s := by
  obtain ⟨t, ht⟩ := exec_completes h s
  rw [ht]
  exact execAll_cons_eq_next_iff.mpr ⟨t, ht, rfl⟩

/-- Executing a well-formed instruction is executing its expansion. -/
theorem execAll_expansion {i : Instr} (h : i.wellFormed = true) (s : State) : execAll (expansion i) s = exec i s := by
  cases i with
  | checksumOf bs => exact execAll_append_of_next (execAll_crcUpd bs s.crcInit)
  | fbLoad bs =>
    exact (execAll_loadInstrs 0 bs s).trans (execFbLoad_eq_next_iff.mpr ⟨of_decide_eq_true h, rfl⟩).symm
  | fbDump => exact execAll_fbRd fbIndices s
  | _ => exact execAll_singleton h s

/-- An operation is its one command word. -/
theorem item_of_isOperation {i : Instr} (hoperation : i.isOperation = true) (hwf : i.wellFormed = true) :
    ∃ p, encode i = [p] ∧ p.decode = .ok i := by
  obtain ⟨cw, henc, hdecode⟩ := encodedOperationDecodesToItself i hoperation hwf
  exact ⟨_, henc, hdecode⟩

theorem item_of_mem_loadInstrs {k : Nat} {bs : List Byte} {j : Instr} (h : j ∈ loadInstrs k bs) :
    ∃ p, encode j = [p] ∧ p.decode = .ok j := by
  induction bs generalizing k with
  | nil => cases h
  | cons b bs ih =>
    rcases List.mem_cons.mp h with rfl | h
    · exact item_of_isOperation rfl rfl
    · exact ih h

/-- Every part of an expansion has one item of its own. -/
theorem item_of_mem_expansion {i : Instr} (hwf : i.wellFormed = true) {j : Instr} (hj : j ∈ expansion i) :
    ∃ p, encode j = [p] ∧ p.decode = .ok j := by
  cases i with
  | fbLoad bs => exact item_of_mem_loadInstrs hj
  | checksumOf bs =>
    simp only [expansion, List.cons_append, List.mem_cons, List.mem_append, List.mem_map,
      List.not_mem_nil, or_false] at hj
    rcases hj with rfl | ⟨b, -, rfl⟩ | rfl <;> exact item_of_isOperation rfl rfl
  | fbDump =>
    obtain ⟨k, -, rfl⟩ := List.mem_map.mp hj
    exact item_of_isOperation rfl rfl
  | getsnReq => obtain rfl := List.mem_singleton.mp hj; exact ⟨_, rfl, decodeSent_eq_ok_iff.mpr ⟨rfl, rfl⟩⟩
  | getsnRpl serial cc tt => obtain rfl := List.mem_singleton.mp hj; exact ⟨_, rfl, decodeReceived_eq_ok_of_frame rfl⟩
  | _ => obtain rfl := List.mem_singleton.mp hj; exact item_of_isOperation rfl hwf

/-- Settles O15: the encoding is that of the expansion, item by item, and so is the execution. -/
theorem runningTheEncodingIsExecuting : Obligations.RunningTheEncodingIsExecuting := by
  intro i s rest hwf
  rw [encode_eq_flatMap_expansion, core_run_items (fun _ => item_of_mem_expansion hwf), execAll_expansion hwf]

end Sys2Proof.Machine
end

section
/-! The table and the checksum are linear over XOR (40_checksum.md R56, R57), and what CRC.INIT, CRC.UPD and CRC.RD do
to the state, as instructions and as command words (40_checksum.md R52 to R54). -/

namespace Sys2Proof.Machine

open Sys2Proof.Safety

/-! ## One shift-and-XOR step (10_state.md R12) -/

theorem bitstep_of_bit7 {x : Byte} (h : x.getLsbD 7 = true) : bitstep x = x <<< 1 ^^^ Config.poly := if_pos h

theorem bitstep_of_not_bit7 {x : Byte} (h : x.getLsbD 7 = false) : bitstep x = x <<< 1 :=
  if_neg (Bool.eq_false_iff.mp h)

/-- Whether `POLY` is added depends linearly on bit 7, so a step is linear. -/
theorem bitstep_xor (x y : Byte) : bitstep (x ^^^ y) = bitstep x ^^^ bitstep y := by
  have hbit : (x ^^^ y).getLsbD 7 = (x.getLsbD 7 ^^ y.getLsbD 7) := BitVec.getLsbD_xor
  have hshift : (x ^^^ y) <<< 1 = x <<< 1 ^^^ y <<< 1 := BitVec.shiftLeft_xor_distrib x y 1
  cases hx : x.getLsbD 7 <;> cases hy : y.getLsbD 7 <;> rw [hx, hy] at hbit
  · rw [bitstep_of_not_bit7 hx, bitstep_of_not_bit7 hy, bitstep_of_not_bit7 hbit, hshift]
  · rw [bitstep_of_not_bit7 hx, bitstep_of_bit7 hy, bitstep_of_bit7 hbit, hshift, BitVec.xor_assoc]
  · rw [bitstep_of_bit7 hx, bitstep_of_not_bit7 hy, bitstep_of_bit7 hbit, hshift]
    ac_rfl
  · rw [bitstep_of_bit7 hx, bitstep_of_bit7 hy, bitstep_of_not_bit7 hbit, hshift]
    calc x <<< 1 ^^^ y <<< 1 = x <<< 1 ^^^ y <<< 1 ^^^ (Config.poly ^^^ Config.poly) := by
          rw [BitVec.xor_self, BitVec.xor_zero]
      _ = x <<< 1 ^^^ Config.poly ^^^ (y <<< 1 ^^^ Config.poly) := by ac_rfl

/-- `POLY` is odd, so bit 0 of the result tells what bit 7 was, and nothing is lost. -/
theorem eq_zero_of_bitstep_eq_zero {x : Byte} (h : bitstep x = 0#8) : x = 0#8 := by
  cases hx : x.getLsbD 7 with
  | true =>
    rw [bitstep_of_bit7 hx] at h
    have hbit0 : (x <<< 1 ^^^ Config.poly).getLsbD 0 = true := by simp [Config.poly]
    rw [h] at hbit0
    cases hbit0
  | false =>
    rw [bitstep_of_not_bit7 hx] at h
    have hsmall : 2 * x.toNat < 2 ^ 8 :=
      BitVec.msb_eq_false_iff_two_mul_lt.mp ((BitVec.msb_eq_getLsbD_last x).trans hx)
    bv_omega

theorem bitstep_injective : Function.Injective bitstep := by
  intro x y h
  rw [← BitVec.xor_eq_zero_iff] at h ⊢
  exact eq_zero_of_bitstep_eq_zero ((bitstep_xor x y).trans h)

/-! ## The table (R56) -/

theorem crcTable_xor (x y : Byte) : crcTable (x ^^^ y) = crcTable x ^^^ crcTable y := by
  simp only [crcTable, bitstep_xor]

theorem crcTable_injective : Function.Injective crcTable := bitstep_injective.iterate 8

/-- The step is linear in both of its operands together (R56 (d)). -/
theorem crc8Step_xor (a c x y : Byte) : crc8Step (a ^^^ c) (x ^^^ y) = crc8Step a x ^^^ crc8Step c y := by
  unfold crc8Step
  rw [← crcTable_xor]
  ac_rfl

/-- Settles O17: the table is eight linear injective steps, and an injection of the bytes is a bijection. -/
theorem tableLaws : Obligations.TableLaws :=
  ⟨rfl, crcTable_xor, crcTable_injective.bijective_of_finite, crcTable_xor⟩

/-! ## The checksum (R57) -/

/-- Absorbing is linear in the starting value and the bytes together. -/
theorem absorb_xor {u e : List Byte} (hlen : u.length = e.length) (a c : Byte) :
    absorb (a ^^^ c) (List.zipWith (· ^^^ ·) u e) = absorb a u ^^^ absorb c e := by
  induction u generalizing e a c with
  | nil => obtain rfl := List.length_eq_zero_iff.mp hlen.symm; rfl
  | cons x u ih =>
    cases e with
    | nil => cases hlen
    | cons y e =>
      rw [List.zipWith_cons_cons, absorb_cons, absorb_cons, absorb_cons, crc8Step_xor]
      exact ih (Nat.succ.inj hlen) _ _

/-- The difference of two checksums is the difference of the bytes, absorbed from 0x00 (R57 (e)). -/
theorem checksum_zipWith_xor {u e : List Byte} (hlen : u.length = e.length) :
    checksum (List.zipWith (· ^^^ ·) u e) = checksum u ^^^ absorb 0#8 e :=
  absorb_xor hlen Config.init 0#8

set_option maxRecDepth 20000 in
/-- The example of R57 (b). -/
theorem checksum_depends_on_order :
    checksum [0x01#8, 0x02#8] = 0xCC#8 ∧ checksum [0x02#8, 0x01#8] = 0xFA#8 := by decide

/-- Settles O18: the two orders by computation, the continuation as a fold over an append, the difference by
linearity. -/
theorem checksumLaws : Obligations.ChecksumLaws := by
  refine ⟨fun _ _ => congrArg checksum, checksum_depends_on_order, rfl, fun _ _ => List.foldl_append,
    fun u e hlen => ?_⟩
  rw [checksum_zipWith_xor hlen, xor_xor_cancel_comm]
  rfl

/-! ## The command words -/

theorem answersIllegal_of_not_decoded {cw : CmdWord} (h : ∀ i, decode cw ≠ .ok i) : answersIllegal cw := by
  cases hdecode : decode cw with
  | ok i => exact absurd hdecode (h i)
  | error e => exact answersIllegal_of_decode hdecode

/-- An opcode of format Z accepts no argument but zero (30_encoding.md R34, R44 (a)). -/
theorem answersIllegal_of_formatZ {op : Byte} {i : Instr} (hop : ∀ cw, opcodeOf cw = op → decode cw = decodeZ cw i)
    {arg : BitVec 48} (harg : arg ≠ 0#48) : answersIllegal (op ++ arg) := by
  refine answersIllegal_of_not_decoded fun j h => harg ?_
  rw [hop _ BitVec.extractLsb'_append_eq_left] at h
  obtain ⟨hzero, -⟩ := decodeZ_eq_ok_iff.mp h
  rwa [BitVec.extractLsb'_append_eq_right] at hzero

/-- An opcode of format B accepts no argument above its byte but zero (30_encoding.md R35, R44 (a)). -/
theorem answersIllegal_of_formatB {op : Byte} {k : Byte → Instr}
    (hop : ∀ cw, opcodeOf cw = op → decode cw = decodeB cw k) {z : BitVec 40} (hz : z ≠ 0#40) (b : Byte) :
    answersIllegal (op ++ z ++ b) := by
  obtain ⟨hopcode, hzfield⟩ := (extractLsb'_eq_append_iff 8 40).mp
    (BitVec.extractLsb'_append_eq_left (a := op ++ z) (b := b))
  refine answersIllegal_of_not_decoded fun j h => hz ?_
  rw [hop _ hopcode] at h
  obtain ⟨hzero, -⟩ := decodeB_eq_ok_iff.mp h
  exact hzfield.symm.trans hzero

/-! ## CRC.INIT, CRC.UPD, CRC.RD -/

/-- Settles O19: the effect by unfolding, the word by decoding it. -/
theorem crcInitStartsAChecksum : Obligations.CrcInitStartsAChecksum := by
  refine ⟨fun _ => rfl, fun s t u ht hu => ?_, runsAs_of_decode rfl, fun arg =>
    answersIllegal_of_formatZ fun _ => decode_of_crcInit⟩
  cases ht
  cases hu
  exact ⟨rfl, rfl⟩

/-- Settles O21: the response carries `ACC`, and no field but the responses is written. -/
theorem crcRdAnswersAcc : Obligations.CrcRdAnswersAcc :=
  ⟨fun _ => rfl, rfl, runsAs_of_decode rfl, fun _ => answersIllegal_of_formatZ fun _ => decode_of_crcRd⟩

set_option maxRecDepth 20000 in
/-- The bytes that the table keeps (R53): a finite check of 256 entries. -/
theorem crcTable_eq_self_iff : ∀ a : Byte, crcTable a = a ↔ a = 0x00#8 ∨ a = 0xFD#8 := by decide

/-- After CRC.INIT and an update with each byte of a message, `ACC` is its checksum (R53). -/
theorem acc_of_execAll_message {bs : List Byte} {s t : State}
    (h : execAll (.crcInit :: bs.map .crcUpd) s = .next t) : t.acc = checksum bs := by
  obtain ⟨u, hinit, hrest⟩ := execAll_cons_eq_next_iff.mp h
  cases hinit
  rw [execAll_crcUpd] at hrest
  cases hrest
  obtain ⟨rs, -, heq⟩ := State.crcUpdAll_spec bs s.crcInit
  rw [heq]
  rfl

/-- Settles O20: the corner cases are entries of the table, the message is absorbed from `INIT`. -/
theorem crcUpdAbsorbsOneByte : Obligations.CrcUpdAbsorbsOneByte := by
  refine ⟨fun _ _ => rfl, fun a => ?_, fun a => ⟨?_, ?_⟩, fun _ _ _ => acc_of_execAll_message,
    fun b => runsAs_of_decode ?_, fun _ b hz => answersIllegal_of_formatB (fun _ => decode_of_crcUpd) hz b⟩
  · rw [BitVec.xor_zero]
    exact crcTable_eq_self_iff a
  · rw [BitVec.xor_self]
    rfl
  · rw [xor_cancel_left]
    rfl
  · exact decode_of_encode (i := .crcUpd b) rfl rfl rfl

end Sys2Proof.Machine
end

section
/-! Changes to a frame (40_checksum.md R58): a change of bits is a frame added to the frame, so by linearity its effect
on the checksum, and whether it is detected, is a value of the change alone. -/

namespace Sys2Proof.Machine

open Sys2Proof.Safety

/-! ## A change of bits as a frame added -/

/-- Two frames added byte by byte. -/
def xorFrame (F E : Frame) : Frame :=
  ⟨F.b0 ^^^ E.b0, F.b1 ^^^ E.b1, F.b2 ^^^ E.b2, F.b3 ^^^ E.b3, F.b4 ^^^ E.b4, F.b5 ^^^ E.b5, F.b6 ^^^ E.b6,
   F.b7 ^^^ E.b7⟩

/-- The frame with the bits of `e` in bytes 0 to 6, byte 0 on top, and byte 7 zero. -/
def errorFrame (e : BitVec 56) : Frame := frameOfWord (e ++ 0#8)

theorem frameOfWord_xor (v w : FrameWord) : frameOfWord (v ^^^ w) = xorFrame (frameOfWord v) (frameOfWord w) := by
  simp only [frameOfWord, xorFrame, BitVec.extractLsb'_xor]

/-- A frame written as one value is read back (30_encoding.md R31). -/
theorem frameOfWord_frameToWord (F : Frame) : frameOfWord (frameToWord F) = F := by
  obtain ⟨h0, h1, h2, h3, h4, h5, h6, h7⟩ :=
    ((eq_append_iff 56 8).trans <| (extractLsb'_eq_append_and_iff 48 8).trans <|
      (extractLsb'_eq_append_and_iff 40 8).trans <| (extractLsb'_eq_append_and_iff 32 8).trans <|
      (extractLsb'_eq_append_and_iff 24 8).trans <| (extractLsb'_eq_append_and_iff 16 8).trans <|
      extractLsb'_eq_append_and_iff 8 8).mp (rfl : frameToWord F = _)
  simp only [frameOfWord, h0, h1, h2, h3, h4, h5, h6, h7]

theorem flipBits_eq_xorFrame (F : Frame) (e : BitVec 56) : flipBits F e = xorFrame F (errorFrame e) := by
  rw [flipBits, frameOfWord_xor, frameOfWord_frameToWord, errorFrame]

theorem errorFrame_xor (d e : BitVec 56) : errorFrame (d ^^^ e) = xorFrame (errorFrame d) (errorFrame e) := by
  unfold errorFrame
  rw [← frameOfWord_xor, BitVec.xor_append, BitVec.xor_self]

/-! ## The bytes under the checksum -/

/-- Bytes 0 to 5, which the checksum of a frame reads (41_frame_codec.md R62). -/
def coveredBytes (F : Frame) : List Byte := [F.b0, F.b1, F.b2, F.b3, F.b4, F.b5]

theorem frameCrc_eq_checksum (F : Frame) : frameCrc F = checksum (coveredBytes F) := rfl

theorem coveredBytes_length (F E : Frame) : (coveredBytes F).length = (coveredBytes E).length := rfl

theorem coveredBytes_xorFrame (F E : Frame) :
    coveredBytes (xorFrame F E) = List.zipWith (· ^^^ ·) (coveredBytes F) (coveredBytes E) := rfl

/-- What a change of bits adds to the checksum of every frame (R57 (e)). -/
def crcDifference (e : BitVec 56) : Byte := absorb 0#8 (coveredBytes (errorFrame e))

theorem frameCrc_flipBits (F : Frame) (e : BitVec 56) : frameCrc (flipBits F e) = frameCrc F ^^^ crcDifference e := by
  rw [flipBits_eq_xorFrame, frameCrc_eq_checksum, coveredBytes_xorFrame,
    checksum_zipWith_xor (coveredBytes_length _ _)]
  rfl

theorem crcDifference_xor (d e : BitVec 56) : crcDifference (d ^^^ e) = crcDifference d ^^^ crcDifference e := by
  unfold crcDifference
  rw [errorFrame_xor, coveredBytes_xorFrame]
  exact absorb_xor (coveredBytes_length _ _) 0#8 0#8

/-! ## Detection -/

theorem verify_eq_true_iff {F : Frame} : verify F = true ↔ frameCrc F = F.b6 := beq_iff_eq

/-- The difference a change makes between the recomputed checksum and the checksum byte. -/
def syndrome (e : BitVec 56) : Byte := crcDifference e ^^^ (errorFrame e).b6

theorem syndrome_xor (d e : BitVec 56) : syndrome (d ^^^ e) = syndrome d ^^^ syndrome e := by
  have hb6 : (errorFrame (d ^^^ e)).b6 = (errorFrame d).b6 ^^^ (errorFrame e).b6 :=
    congrArg Octet.b6 (errorFrame_xor d e)
  unfold syndrome
  rw [crcDifference_xor, hb6]
  ac_rfl

/-- A verifying frame, changed, verifies again exactly when the change adds the same to the checksum and to byte 6. -/
theorem verify_flipBits_iff {F : Frame} (h : verify F = true) (e : BitVec 56) :
    verify (flipBits F e) = true ↔ syndrome e = 0#8 := by
  have hb6 : (flipBits F e).b6 = F.b6 ^^^ (errorFrame e).b6 := congrArg Octet.b6 (flipBits_eq_xorFrame F e)
  rw [verify_eq_true_iff, frameCrc_flipBits, hb6, verify_eq_true_iff.mp h, BitVec.xor_right_inj, syndrome,
    BitVec.xor_eq_zero_iff]

theorem verify_flipBits_eq_false {F : Frame} {e : BitVec 56} (he : syndrome e ≠ 0#8) (h : verify F = true) :
    verify (flipBits F e) = false :=
  Bool.eq_false_iff.mpr (mt (verify_flipBits_iff h e).mp he)

set_option maxRecDepth 20000 in
/-- One bit: the syndrome of bit `j` is the power `x^j` modulo the generator polynomial, for each of the 56 bits. -/
theorem syndrome_bitAt : ∀ j : Fin 56, syndrome (bitAt j) = bitstep^[j.val] 1#8 := by decide

/-- No power of `x` from the first to the 55th is 1 modulo the generator polynomial. -/
theorem bitstep_iterate_ne_one : ∀ d : Fin 55, bitstep^[d.val + 1] 1#8 ≠ 1#8 := by decide

/-- Two bits have the same syndrome only where their distance is a power of `x` that is 1. -/
theorem syndrome_two_bits_ne_zero {j k : Fin 56} (hjk : j < k) : syndrome (bitAt j ^^^ bitAt k) ≠ 0#8 := by
  rw [syndrome_xor, syndrome_bitAt, syndrome_bitAt, Ne, BitVec.xor_eq_zero_iff]
  intro heq
  have hcycle : bitstep^[k.val - j.val] 1#8 = 1#8 := Function.iterate_cancel bitstep_injective heq.symm
  have hd : k.val - j.val - 1 < 55 := by omega
  refine bitstep_iterate_ne_one ⟨k.val - j.val - 1, hd⟩ ?_
  rwa [Nat.sub_add_cancel (by omega)]

/-- Whether the number of ones of a byte at the listed positions is odd. -/
def oddAt (ps : List Nat) (x : Byte) : Bool := ps.foldr (fun i odd => x.getLsbD i ^^ odd) false

/-- Whether the number of ones of a byte is odd. -/
def oddWeight (x : Byte) : Bool := oddAt [0, 1, 2, 3, 4, 5, 6, 7] x

theorem oddAt_xor (ps : List Nat) (x y : Byte) : oddAt ps (x ^^^ y) = (oddAt ps x ^^ oddAt ps y) := by
  induction ps with
  | nil => rfl
  | cons i ps ih =>
    calc oddAt (i :: ps) (x ^^^ y) = ((x ^^^ y).getLsbD i ^^ oddAt ps (x ^^^ y)) := rfl
      _ = ((x.getLsbD i ^^ y.getLsbD i) ^^ (oddAt ps x ^^ oddAt ps y)) := by rw [ih, BitVec.getLsbD_xor]
      _ = ((x.getLsbD i ^^ oddAt ps x) ^^ (y.getLsbD i ^^ oddAt ps y)) := by
        rw [Bool.xor_assoc, Bool.xor_assoc, Bool.xor_left_comm (y.getLsbD i)]

theorem oddWeight_xor (x y : Byte) : oddWeight (x ^^^ y) = (oddWeight x ^^ oddWeight y) := oddAt_xor _ x y

theorem oddWeight_shiftLeft (x : Byte) : oddWeight (x <<< 1) = (oddWeight x ^^ x.getLsbD 7) := by
  simp [oddWeight, oddAt]

/-- The bit that a step shifts out takes an odd number of ones with it, and `POLY` brings an odd number back: the
generator polynomial has the factor `x + 1`. -/
theorem oddWeight_bitstep (x : Byte) : oddWeight (bitstep x) = oddWeight x := by
  cases h : x.getLsbD 7 with
  | true =>
    have hpoly : oddWeight Config.poly = true := rfl
    rw [bitstep_of_bit7 h, oddWeight_xor, oddWeight_shiftLeft, h, hpoly, Bool.xor_assoc, Bool.xor_self, Bool.xor_false]
  | false => rw [bitstep_of_not_bit7 h, oddWeight_shiftLeft, h, Bool.xor_false]

/-- One bit makes an odd number of ones in the syndrome. -/
theorem oddWeight_syndrome_bitAt (j : Fin 56) : oddWeight (syndrome (bitAt j)) = true := by
  rw [syndrome_bitAt]
  induction j.val with
  | zero => rfl
  | succ n ih => rw [Function.iterate_succ_apply', oddWeight_bitstep, ih]

/-- Three bits make an odd number of ones in the syndrome, so not none. -/
theorem syndrome_three_bits_ne_zero (j k l : Fin 56) : syndrome (bitAt j ^^^ bitAt k ^^^ bitAt l) ≠ 0#8 := by
  have hodd : oddWeight (syndrome (bitAt j ^^^ bitAt k ^^^ bitAt l)) = true := by
    rw [syndrome_xor, syndrome_xor, oddWeight_xor, oddWeight_xor, oddWeight_syndrome_bitAt, oddWeight_syndrome_bitAt,
      oddWeight_syndrome_bitAt]
    rfl
  intro hzero
  rw [hzero] at hodd
  cases hodd

set_option maxRecDepth 20000 in
/-- The two frames, four bits apart, that R58 names. -/
theorem verify_four_bits_apart :
    verify ⟨0x20#8, 0x02#8, 0#8, 0#8, 0#8, 0x2A#8, 0x86#8, 0xFF#8⟩ = true ∧
      verify ⟨0xF0#8, 0x02#8, 0#8, 0#8, 0#8, 0x2A#8, 0x82#8, 0xFF#8⟩ = true := by decide

/-- Settles O35: two bits have different syndromes, three an odd one; the two frames by computation. -/
theorem twoAndThreeBitErrorsAreDetected : Obligations.TwoAndThreeBitErrorsAreDetected :=
  ⟨fun _ _ _ hjk => verify_flipBits_eq_false (syndrome_two_bits_ne_zero hjk),
    fun _ j k l _ _ => verify_flipBits_eq_false (syndrome_three_bits_ne_zero j k l),
    verify_four_bits_apart⟩

set_option maxRecDepth 20000 in
/-- Settles O36: the change of the checksum depends on the bit alone, so that 48 values are compared with the table. -/
theorem singleBitChangesOfTheChecksum : Obligations.SingleBitChangesOfTheChecksum := by
  intro F n
  rw [frameCrc_flipBits, xor_xor_cancel_comm]
  revert n
  decide

end Sys2Proof.Machine
end

section
/-! The frame codec (41_frame_codec.md): `stamp` and `verify` as functions (R63, R64, R68), FB.WR and FB.RD (R60, R61),
FRM.STAMP and FRM.VERIFY on the buffer as they find it (R65 to R67). -/

namespace Sys2Proof.Machine

open Sys2Proof.Safety

/-! ## `stamp` and `verify` -/

/-- Byte 6 is not under the checksum, so of all its values the checksum alone verifies (R64). -/
theorem verify_with_b6_iff {F : Frame} {x : Byte} : verify { F with b6 := x } = true ↔ x = frameCrc F :=
  verify_eq_true_iff.trans eq_comm

theorem verify_stamp (F : Frame) : verify (stamp F) = true := verify_with_b6_iff.mpr rfl

/-- Byte 6 is not under the checksum that is stamped into it (R65). -/
theorem stamp_stamp (F : Frame) : stamp (stamp F) = stamp F := rfl

/-- The request is stamped with 0x50, whatever stood under the stamp (R65). -/
theorem stamp_getsnRequest (x : Byte) :
    stamp ⟨Config.getsnFamily, Config.getsnCode, 0#8, 0#8, 0#8, 0#8, x, Config.terminator⟩ =
      ⟨Config.getsnFamily, Config.getsnCode, 0#8, 0#8, 0#8, 0#8, 0x50#8, Config.terminator⟩ := by
  rw [stamp, frameCrc, checksum_getsnRequest]

theorem ne_zero_of_oddWeight {x : Byte} (h : oddWeight x = true) : x ≠ 0#8 := by
  rintro rfl
  cases h

/-- Settles O34: the syndrome of one bit has an odd number of ones, so it is not zero; byte 7 is not examined; and one
value of byte 6 verifies. -/
theorem verifyIsSensitiveToEveryCoveredBit : Obligations.VerifyIsSensitiveToEveryCoveredBit := by
  refine ⟨fun _ j => verify_flipBits_eq_false (ne_zero_of_oddWeight (oddWeight_syndrome_bitAt j)), verify_terminator,
    fun F x hne hverify => ?_⟩
  rw [← verify_eq_true_iff.mp hverify] at hne
  exact Bool.eq_false_iff.mpr (mt verify_with_b6_iff.mp hne)

/-! ## The command words of FB.WR and FB.RD -/

/-- An opcode of format X accepts no argument above its index but zero (30_encoding.md R36, R44 (a)). -/
theorem answersIllegal_of_formatX {op : Byte} {f : FbIndex → Instr}
    (hop : ∀ cw, opcodeOf cw = op → decode cw = decodeX cw f) {z : BitVec 45} (hz : z ≠ 0#45) (i : FbIndex) :
    answersIllegal (op ++ z ++ i) := by
  obtain ⟨hopcode, hzfield, -⟩ :=
    ((eq_append_iff 53 3).trans (extractLsb'_eq_append_and_iff 8 45)).mp (rfl : op ++ z ++ i = _)
  refine answersIllegal_of_not_decoded fun j h => hz ?_
  rw [hop _ hopcode] at h
  obtain ⟨hzero, -⟩ := decodeX_eq_ok_iff.mp h
  exact hzfield.symm.trans hzero

/-- An opcode of format XB accepts no argument above its index and byte but zero (30_encoding.md R37, R44 (a)). -/
theorem answersIllegal_of_formatXB {op : Byte} {f : FbIndex → Byte → Instr}
    (hop : ∀ cw, opcodeOf cw = op → decode cw = decodeXB cw f) {z : BitVec 37} (hz : z ≠ 0#37) (i : FbIndex)
    (b : Byte) : answersIllegal (op ++ z ++ i ++ b) := by
  obtain ⟨hopcode, hzfield, -, -⟩ :=
    ((eq_append_iff 48 8).trans <| (extractLsb'_eq_append_and_iff 45 3).trans <|
      extractLsb'_eq_append_and_iff 8 37).mp (rfl : op ++ z ++ i ++ b = _)
  refine answersIllegal_of_not_decoded fun j h => hz ?_
  rw [hop _ hopcode] at h
  obtain ⟨hzero, -⟩ := decodeXB_eq_ok_iff.mp h
  exact hzfield.symm.trans hzero

/-! ## FB.WR and FB.RD -/

/-- Settles O25: FB.WR sets one byte and its mark, and every other index is found as it was. -/
theorem fbWrWritesOneByte : Obligations.FbWrWritesOneByte := by
  refine ⟨fun s i b => ⟨s.fbWr i b, rfl, State.fbWr_holds i b s, fun k hk => ?_, rfl, rfl, rfl, rfl, rfl⟩,
    fun i b => runsAs_of_decode (decode_of_encode (i := .fbWr i b) rfl rfl rfl),
    fun _ i b hz => answersIllegal_of_formatXB (fun _ => decode_of_fbWr) hz i b⟩
  exact ⟨octetGet_set_other _ _ hk, octetGet_set_other _ _ hk, State.writeFb_fbByte_other b s hk⟩

/-- FB.RD of a never-written byte answers a free value (93_implementation_defined.md U2). -/
theorem State.fbRd_of_unwritten {s : State} {i : FbIndex} (h : octetGet s.written i = false) :
    s.fbRd i = s.drawn.respond .ok (zext32 (Config.freeByte s.draws i)) := by
  rw [State.fbRd, State.fbByte_of_unwritten h]

/-- Settles O26: the byte held is answered, or else a free value. -/
theorem fbRdAnswersOneByte : Obligations.FbRdAnswersOneByte :=
  ⟨fun _ _ _ hheld => congrArg Host.Outcome.next (State.fbRd_of_holds hheld),
    fun _ _ hunwritten => congrArg Host.Outcome.next (State.fbRd_of_unwritten hunwritten),
    fun i => runsAs_of_decode (decode_of_encode (i := .fbRd i) rfl rfl rfl),
    fun _ i hz => answersIllegal_of_formatX (fun _ => decode_of_fbRd) hz i⟩

/-! ## FRM.STAMP -/

/-- FRM.STAMP of a written buffer stamps the frame in it and answers the checksum. -/
theorem State.frmStamp_of_holdsFrame {s : State} {F : Frame} (h : holdsFrame s F) :
    s.frmStamp = { s with
      fb := stamp F, draws := s.draws + 1, responses := resp .ok (zext32 (frameCrc F)) :: s.responses } := by
  obtain ⟨hwritten, rfl⟩ := h
  have hmarks : octetSet s.written 6#3 true = s.written := by rw [hwritten]; rfl
  rw [State.frmStamp, State.fbFrame_of_written hwritten, State.writeFb, State.drawn_written, hmarks]
  rfl

theorem State.frmStamp_holdsFrame {s : State} {F : Frame} (h : holdsFrame s F) : holdsFrame s.frmStamp (stamp F) := by
  rw [State.frmStamp_of_holdsFrame h]
  obtain ⟨hwritten, -⟩ := h
  exact ⟨hwritten, rfl⟩

/-- FRM.STAMP of the request, whatever stood under the stamp (R65). -/
theorem State.frmStamp_getsnRequest {s : State} {x : Byte}
    (h : holdsFrame s ⟨Config.getsnFamily, Config.getsnCode, 0#8, 0#8, 0#8, 0#8, x, Config.terminator⟩) :
    s.frmStamp.responses = resp .ok (zext32 0x50#8) :: s.responses := by
  rw [State.frmStamp_of_holdsFrame h, frameCrc, checksum_getsnRequest]

/-- Settles O31: FRM.STAMP sets `FB[6]` and its mark; a stamped frame is its own stamp; the request is stamped with
0x50. -/
theorem frmStampWritesTheChecksum : Obligations.FrmStampWritesTheChecksum := by
  refine ⟨fun s => ⟨s.frmStamp, rfl, ⟨rfl, rfl⟩, fun k hk => ?_, rfl, rfl, rfl, rfl, rfl⟩, fun s t u F hF ht hu => ?_,
    fun s t x hF ht => ?_, runsAs_of_decode rfl, fun _ => answersIllegal_of_formatZ fun _ => decode_of_frmStamp⟩
  · exact ⟨octetGet_set_other _ _ hk, octetGet_set_other _ _ hk⟩
  · cases ht
    cases hu
    have hstamped : holdsFrame s.frmStamp (stamp F) := State.frmStamp_holdsFrame hF
    exact ⟨hstamped, stamp_stamp F ▸ State.frmStamp_holdsFrame hstamped⟩
  · cases ht
    exact ⟨stamp_getsnRequest x ▸ State.frmStamp_holdsFrame hF, State.frmStamp_getsnRequest hF⟩

/-! ## FRM.VERIFY -/

theorem State.frmVerify_of_verify {s : State} (h : verify s.fbFrame = true) :
    s.frmVerify = s.drawn.respond .ok 1#32 := by
  rw [State.frmVerify, if_pos h]

theorem State.frmVerify_of_not_verify {s : State} (h : ¬ verify s.fbFrame = true) :
    s.frmVerify = s.drawn.respond .ok 0#32 := by
  rw [State.frmVerify, if_neg h]

/-- Settles O32: the response is that of the comparison; byte 7 is not examined; byte 6 verifies when it is the
checksum. -/
theorem frmVerifyComparesTheChecksum : Obligations.FrmVerifyComparesTheChecksum := by
  refine ⟨fun s => ?_, verify_terminator, fun F => ⟨frameCrc F, verify_with_b6_iff.mpr rfl, fun _ =>
    verify_with_b6_iff.mp⟩, runsAs_of_decode rfl, fun _ => answersIllegal_of_formatZ fun _ => decode_of_frmVerify⟩
  split_ifs with hcrc
  · exact congrArg Host.Outcome.next (State.frmVerify_of_verify (verify_eq_true_iff.mpr hcrc))
  · exact congrArg Host.Outcome.next (State.frmVerify_of_not_verify (mt verify_eq_true_iff.mp hcrc))

/-! ## The round trip (R67) -/

/-- A written byte other than `FB[6]` is found after FRM.STAMP as it was found before. -/
theorem State.frmStamp_fbByte_of_written {s : State} {k : FbIndex} (hk : k ≠ 6#3) (h : octetGet s.written k = true) :
    s.frmStamp.fbByte k = s.fbByte k := by
  rw [State.frmStamp, State.respond_fbByte, State.writeFb_fbByte_other _ _ hk, State.fbByte_of_written h]
  exact State.fbByte_of_written (s := s.drawn) h

/-- With bytes 0 to 5 written, FRM.VERIFY finds the bytes that FRM.STAMP has summed up, and their checksum in byte 6. -/
theorem State.verify_frmStamp {s : State} (h : ∀ k : FbIndex, k.toNat < 6 → octetGet s.written k = true) :
    verify s.frmStamp.fbFrame = true := by
  have hbyte : ∀ k : FbIndex, k.toNat < 6 → s.frmStamp.fbByte k = s.fbByte k := fun k hk =>
    State.frmStamp_fbByte_of_written (by rintro rfl; exact absurd hk (by decide)) (h k hk)
  have hcrc : frameCrc s.frmStamp.fbFrame = frameCrc s.fbFrame :=
    frameCrc_congr (hbyte 0#3 (by decide)) (hbyte 1#3 (by decide)) (hbyte 2#3 (by decide)) (hbyte 3#3 (by decide))
      (hbyte 4#3 (by decide)) (hbyte 5#3 (by decide))
  have hb6 : s.frmStamp.fbByte 6#3 = frameCrc s.fbFrame := State.writeFb_fbByte_same _ _ s.drawn
  exact verify_eq_true_iff.mpr (hcrc.trans hb6.symm)

/-- FRM.BUILD leaves a stamped frame (42_frame_transaction.md R70, R71). -/
theorem State.verify_frmBuild (fam code p0 p1 p2 p3 : Byte) (s : State) :
    verify (s.frmBuild fam code p0 p1 p2 p3).fbFrame = true := by
  rw [State.frmBuild, State.respond_fbFrame, State.writeFrame_fbFrame]
  exact verify_stamp _

/-- Where the frame found verifies, FRM.VERIFY answers 1 (R66). -/
theorem exec_frmVerify_of_verify {t : State} (h : verify t.fbFrame = true) :
    ∃ u, exec .frmVerify t = .next u ∧ u.responses = 0x0000000001#40 :: t.responses :=
  ⟨t.frmVerify, rfl, congrArg State.responses (State.frmVerify_of_verify h)⟩

/-- Settles O33: a stamp verifies, and it is what FRM.VERIFY finds after FRM.STAMP of written bytes and after
FRM.BUILD. -/
theorem stampedAndBuiltFramesVerify : Obligations.StampedAndBuiltFramesVerify := by
  refine ⟨verify_stamp, fun s t hwritten ht => ?_, fun s t fam code p0 p1 p2 p3 ht => ?_⟩
  · cases ht
    exact exec_frmVerify_of_verify (State.verify_frmStamp hwritten)
  · cases ht
    exact exec_frmVerify_of_verify (State.verify_frmBuild fam code p0 p1 p2 p3 s)

end Sys2Proof.Machine
end

section
/-! Requests and replies (42_frame_transaction.md): FRM.BUILD (R71), the four steps of FRM.DECODE (R72, R73), and the
transaction for every answer of the transport, as a procedure and as its command words (R74, R76, R79). -/

namespace Sys2Proof.Machine

open Sys2Proof.Safety

/-! ## FRM.BUILD -/

set_option maxRecDepth 20000 in
/-- The checksum of the second worked example (42_frame_transaction.md R71). -/
theorem checksum_deadbeef :
    checksum [Config.getsnFamily, Config.getsnCode, 0xDE#8, 0xAD#8, 0xBE#8, 0xEF#8] = 0x9A#8 := by decide

/-- Settles O39: the frame built does not mention the old one, REQ.GETSN is that build by definition, and every word of
the opcode is an encoding. -/
theorem frmBuildFillsTheBuffer : Obligations.FrmBuildFillsTheBuffer := by
  refine ⟨fun i fam code p0 p1 p2 p3 s hi => ?_, checksum_getsnRequest, checksum_deadbeef, fun fam code p0 p1 p2 p3 =>
    runsAs_of_decode (decode_of_encode (i := .frmBuild fam code p0 p1 p2 p3) rfl rfl rfl)⟩
  have hexec : exec i s = .next (s.frmBuild fam code p0 p1 p2 p3) := by
    rcases hi with rfl | ⟨rfl, rfl, rfl, rfl, rfl, rfl, rfl⟩ <;> rfl
  rw [hexec, State.frmBuild, buildFrame_eq]
  rfl

/-! ## FRM.DECODE -/

/-- The response word of FRM.DECODE for the frame it finds: the four steps in their order (42_frame_transaction.md R72,
R73). `State.frmDecode_eq` ties it to the model. -/
def replyWord (F : Frame) (n : BitVec 4) (efam ecode : Byte) : RespWord :=
  if n.toNat < 8 then 0x01#8 ++ 0x0000#16 ++ 0x08#8 ++ n.setWidth 8
  else if F.b0 ≠ efam ∨ F.b1 ≠ ecode then 0x02#8 ++ efam ++ ecode ++ F.b0 ++ F.b1
  else if frameCrc F ≠ F.b6 then 0x03#8 ++ 0x0000#16 ++ frameCrc F ++ F.b6
  else 0x00#8 ++ F.b2 ++ F.b3 ++ F.b4 ++ F.b5

/-- The effect of FRM.DECODE: one response, and a draw where `FB` is read (assumption log 3). -/
theorem State.frmDecode_eq {n : BitVec 4} (h : n.toNat ≤ 8) (efam ecode : Byte) (s : State) :
    s.frmDecode efam ecode n = { s with
      draws := if n.toNat < 8 then s.draws else s.draws + 1
      responses := replyWord s.fbFrame n efam ecode :: s.responses } := by
  have hcrc : verify s.fbFrame = false ↔ frameCrc s.fbFrame ≠ s.fbFrame.b6 := beq_eq_false_iff_ne
  rw [State.frmDecode_of_le h, decodeReply, replyWord]
  simp only [hcrc]
  split_ifs with hshort hecho hsum
  · exact congrArg (fun w => { s with responses := w :: s.responses }) (resp_append_append .shortRead ..)
  · exact congrArg (fun w => { s.drawn with responses := w :: s.responses }) (resp_be32 .unexpectedReply ..)
  · exact congrArg (fun w => { s.drawn with responses := w :: s.responses }) (resp_append_append .checksum ..)
  · exact congrArg (fun w => { s.drawn with responses := w :: s.responses }) (resp_be32 .ok ..)

/-- Opcode 0x09 accepts neither a 1 in a must-be-zero bit nor a count above 8 (30_encoding.md R39, R44). -/
theorem answersIllegal_of_formatD {z : BitVec 28} {n : BitVec 4} (h : z ≠ 0#28 ∨ 8 < n.toNat) (efam ecode : Byte) :
    answersIllegal (0x09#8 ++ efam ++ ecode ++ z ++ n) := by
  obtain ⟨hopcode, -, -, hz, hn⟩ :=
    ((eq_append_iff 52 4).trans <| (extractLsb'_eq_append_and_iff 24 28).trans <|
      (extractLsb'_eq_append_and_iff 16 8).trans <| extractLsb'_eq_append_and_iff 8 8).mp
      (rfl : 0x09#8 ++ efam ++ ecode ++ z ++ n = _)
  refine answersIllegal_of_not_decoded fun i hi => ?_
  rw [decode_of_frmDecode hopcode] at hi
  obtain ⟨hzero, hle, -⟩ := decodeD_eq_ok_iff.mp hi
  rw [hz] at hzero
  rw [hn] at hle
  exact h.elim (fun hne => hne hzero) hle.not_gt

/-- Settles O40: the frame of the statement is the one FRM.DECODE finds, and each clause is a branch of its response. -/
theorem frmDecodeTriesItsStepsInOrder : Obligations.FrmDecodeTriesItsStepsInOrder := by
  refine ⟨fun i efam ecode n s F hi hF => ?_, fun efam ecode n hn => runsAs_of_decode
    (decode_of_encode (i := .frmDecode efam ecode n) rfl (decide_eq_true hn) rfl), fun efam ecode z n h =>
    answersIllegal_of_formatD h efam ecode⟩
  obtain rfl : F = s.fbFrame := octet_ext fun k => by rw [hF, State.octetGet_fbFrame]
  have hexec : exec i s = .next (s.frmDecode efam ecode n) := by
    rcases hi with rfl | ⟨rfl, rfl, rfl⟩ <;> rfl
  rw [hexec]
  refine ⟨fun hn => ?_, fun hn hecho => ?_, fun hn h0 h1 hcrc => ?_, fun hn h0 h1 hcrc => ?_⟩
  · simp [State.frmDecode_eq hn.le, replyWord, hn]
  · simp [State.frmDecode_eq hn.le, replyWord, hn, hecho]
  · simp [State.frmDecode_eq hn.le, replyWord, hn, h0, h1, hcrc]
  · simp [State.frmDecode_eq hn.le, replyWord, hn, h0, h1, hcrc]

theorem replyWord_of_short {n : BitVec 4} (h : n.toNat < 8) (F : Frame) (efam ecode : Byte) :
    replyWord F n efam ecode = 0x01#8 ++ 0x0000#16 ++ 0x08#8 ++ n.setWidth 8 := if_pos h

/-- Settles O41: the response of a short read names the count alone. -/
theorem shortReadDependsOnNoByte : Obligations.ShortReadDependsOnNoByte := by
  intro s t s' t' efam ecode n hn hs ht
  cases hs
  cases ht
  simp only [State.frmDecode_eq hn.le, replyWord_of_short hn, if_pos hn, List.head?_cons, and_self]

/-- A received reply whose checksum fits is decoded to the value it carries (42_frame_transaction.md R72, R74). -/
theorem State.receiveReply_of_value (v : Data) (tt : Byte) (s : State) :
    s.receiveReply ⟨Config.getsnFamily, Config.getsnCode, be32Byte v 0, be32Byte v 1, be32Byte v 2, be32Byte v 3,
        checksum [Config.getsnFamily, Config.getsnCode, be32Byte v 0, be32Byte v 1, be32Byte v 2, be32Byte v 3], tt⟩ =
      { s with
        fb := ⟨Config.getsnFamily, Config.getsnCode, be32Byte v 0, be32Byte v 1, be32Byte v 2, be32Byte v 3,
          checksum [Config.getsnFamily, Config.getsnCode, be32Byte v 0, be32Byte v 1, be32Byte v 2, be32Byte v 3], tt⟩
        written := octetFill true
        draws := s.draws + 1
        responses := resp .ok v :: (List.replicate 8 (resp .ok 0#32) ++ s.responses) } := by
  rw [State.receiveReply_eq, decodeReply_of_echo, if_pos rfl, be32_be32Byte]
  rfl

/-- Settles O42: the load and the decode are a reply received, and the four bytes are those of the value. -/
theorem everySerialNumberIsDecoded : Obligations.EverySerialNumberIsDecoded := by
  rintro s v cc tt rfl
  have hreply := State.receiveReply_of_value v tt s
  exact ⟨_, rfl, congrArg (fun t => t.responses.head?) hreply, congrArg (fun t => t.acc) hreply⟩

/-! ## The transaction -/

/-- The request as a frame (30_encoding.md R32). -/
def requestFrame : Frame := ⟨0x20#8, 0x02#8, 0#8, 0#8, 0#8, 0#8, 0x50#8, 0xFF#8⟩

/-- After steps 1 to 3 the request stands in `FB` and has been sent (42_frame_transaction.md R76). -/
theorem State.requestSent_eq (s : State) : ∃ rs, s.requestSent = { s with
    fb := requestFrame, written := octetFill true, draws := s.draws + 8, responses := rs
    sent := requestFrame :: s.sent } :=
  ⟨_, Host.Outcome.next.inj (getsnReqSendsTheRequest s)⟩

/-- After a full write the procedure goes on to the reply (42_frame_transaction.md R76 step 4). -/
theorem getSerialNumber_of_full_write (n : Fin 9) (buf : Frame) (s : State) :
    getSerialNumber (.count 8) (.count n buf) s =
      .next (.response (s.requestSent.replyDecoded n buf).responses.head?, s.requestSent.replyDecoded n buf) := rfl

theorem octetList_getElem? {α : Type} (o : Octet α) (k : FbIndex) :
    (octetList o)[k.toNat]? = some (octetGet o k) := by
  revert k; rw [forall_fbIndex]; exact ⟨rfl, rfl, rfl, rfl, rfl, rfl, rfl, rfl⟩

theorem octetList_take_length {α : Type} (o : Octet α) (n : Fin 9) : ((octetList o).take n.val).length = n.val :=
  List.length_take_of_le (Nat.le_of_lt_succ n.isLt)

/-- The block after step 6: the first `n` bytes of the buffer stand in `FB` (42_frame_transaction.md R76, R79). -/
def State.replyLoaded (n : Fin 9) (buf : Frame) (s : State) : State := s.fbLoadFrom 0 ((octetList buf).take n.val)

/-- The bytes read stand below `n`, and above them what was held. -/
theorem State.replyLoaded_holds {s : State} (n : Fin 9) (buf : Frame) {k : FbIndex} {b : Byte} (h : holds s k b) :
    holds (s.replyLoaded n buf) k (if k.toNat < n.val then octetGet buf k else b) := by
  have hlen := octetList_take_length buf n
  have hfits : 0 + ((octetList buf).take n.val).length ≤ 8 := by omega
  split_ifs with hk
  · refine ⟨State.fbLoadFrom_marks hfits s (Nat.zero_le _) (by omega),
      State.fbLoadFrom_loads hfits s (Nat.zero_le _) ?_⟩
    rw [Nat.sub_zero, List.getElem?_take_of_lt hk, octetList_getElem?]
  · obtain ⟨hfb, hwritten⟩ := State.fbLoadFrom_outside hfits s (j := k) (.inr (by omega))
    obtain ⟨hheldWritten, hheldFb⟩ := h
    exact ⟨hwritten.trans hheldWritten, hfb.trans hheldFb⟩

theorem State.replyLoaded_keeps (n : Fin 9) (buf : Frame) (s : State) :
    (s.replyLoaded n buf).acc = s.acc ∧ (s.replyLoaded n buf).sent = s.sent := by
  obtain ⟨fb, written, heq⟩ := State.fbLoadFrom_spec 0 ((octetList buf).take n.val) s
  rw [State.replyLoaded, heq]
  exact ⟨rfl, rfl⟩

/-- An operation finds the bytes that are held. -/
theorem State.fbFrame_of_holds {s : State} {F : Frame} (h : ∀ k, holds s k (octetGet F k)) : s.fbFrame = F :=
  octet_ext fun k => by
    obtain ⟨hwritten, hfb⟩ := h k
    rw [State.octetGet_fbFrame, State.fbByte_of_written hwritten, hfb]

theorem toNat_ofNat_count (n : Fin 9) : (BitVec.ofNat 4 n.val).toNat = n.val := by
  rw [BitVec.toNat_ofNat]; exact Nat.mod_eq_of_lt (by omega)

theorem toNat_ofNat_count_le (n : Fin 9) : (BitVec.ofNat 4 n.val).toNat ≤ 8 := by
  rw [toNat_ofNat_count]; exact Nat.le_of_lt_succ n.isLt

theorem setWidth_ofNat_count (n : Fin 9) : (BitVec.ofNat 4 n.val).setWidth 8 = BitVec.ofNat 8 n.val :=
  BitVec.eq_of_toNat_eq (by rw [BitVec.toNat_setWidth, toNat_ofNat_count, BitVec.toNat_ofNat])

/-- A buffer found whole where all eight bytes were read answers as the bytes read do. -/
theorem replyWord_count {F buf : Frame} {n : Fin 9} (hF : ¬ n.val < 8 → F = buf) (efam ecode : Byte) :
    replyWord F (BitVec.ofNat 4 n.val) efam ecode =
      if n.val < 8 then 0x01#8 ++ 0x0000#16 ++ 0x08#8 ++ BitVec.ofNat 8 n.val
      else if buf.b0 ≠ efam ∨ buf.b1 ≠ ecode then 0x02#8 ++ efam ++ ecode ++ buf.b0 ++ buf.b1
      else if frameCrc buf ≠ buf.b6 then 0x03#8 ++ 0x0000#16 ++ frameCrc buf ++ buf.b6
      else 0x00#8 ++ buf.b2 ++ buf.b3 ++ buf.b4 ++ buf.b5 := by
  rw [replyWord, toNat_ofNat_count, setWidth_ofNat_count]
  by_cases hn : n.val < 8
  · rw [if_pos hn, if_pos hn]
  · rw [hF hn]

/-- RSP.GETSN answers for the buffer as it stands after the load (42_frame_transaction.md R76 step 7). -/
theorem State.replyDecoded_eq (n : Fin 9) (buf : Frame) (s : State) :
    ∃ d, s.replyDecoded n buf = { s.replyLoaded n buf with
      draws := d
      responses := replyWord (s.replyLoaded n buf).fbFrame (BitVec.ofNat 4 n.val) Config.getsnFamily
        Config.getsnCode :: (s.replyLoaded n buf).responses } :=
  ⟨_, State.frmDecode_eq (toNat_ofNat_count_le n) ..⟩

/-- Settles O46: the request stands in `FB`, the bytes read are loaded over it, and RSP.GETSN answers for what it then
finds, which is the whole buffer where eight bytes were read. -/
theorem transactionAnswersForEveryTransport : Obligations.TransactionAnswersForEveryTransport := by
  intro s n buf
  obtain ⟨rs, hsent⟩ := State.requestSent_eq s
  obtain ⟨d, hdecoded⟩ := State.replyDecoded_eq n buf s.requestSent
  obtain ⟨hacc, hsentKept⟩ := State.replyLoaded_keeps n buf s.requestSent
  have hrequest (k : FbIndex) : holds s.requestSent k (octetGet requestFrame k) := by
    rw [hsent]; exact ⟨octetGet_fill _ _, rfl⟩
  have hloaded (k : FbIndex) := State.replyLoaded_holds n buf (hrequest k)
  have hwhole (hn : ¬ n.val < 8) : (s.requestSent.replyLoaded n buf).fbFrame = buf :=
    State.fbFrame_of_holds fun k => by simpa only [if_pos (show k.toNat < n.val by omega)] using hloaded k
  refine ⟨s.requestSent.replyDecoded n buf, _, ?_, replyWord_count hwhole .., ?_, ?_, ?_⟩
  · rw [getSerialNumber_of_full_write, hdecoded]; rfl
  · rw [hdecoded]; exact hloaded
  · rw [hdecoded]; exact hacc.trans (by rw [hsent])
  · rw [hdecoded]; exact hsentKept.trans (by rw [hsent]; rfl)

/-! ## The transaction as command words (R47, R76) -/

/-- Instructions one after another are executed as their expansions are. -/
theorem execAll_flatMap_expansion {is : List Instr} (h : ∀ i ∈ is, i.wellFormed = true) (s : State) :
    execAll (is.flatMap expansion) s = execAll is s := by
  induction is generalizing s with
  | nil => rfl
  | cons i is ih =>
    obtain ⟨hi, htail⟩ := List.forall_mem_cons.mp h
    obtain ⟨t, ht⟩ := exec_completes hi s
    rw [List.flatMap_cons, execAll_append_of_next ((execAll_expansion hi s).trans ht), execAll, ht]
    exact ih htail t

theorem flatMap_encode_eq (is : List Instr) : is.flatMap encode = (is.flatMap expansion).flatMap encode := by
  rw [List.flatMap_assoc]
  exact congrArg (is.flatMap ·) (funext encode_eq_flatMap_expansion)

/-- Running the items of several instructions is executing them, whatever their expansions (30_encoding.md R47). -/
theorem core_run_instrs {is : List Instr} (h : ∀ i ∈ is, i.wellFormed = true) (s : State) (rest : List Stimulus) :
    Sys2Proof.core.run (is.flatMap encode).length { s with pending := is.flatMap encode ++ rest } =
      execAll is { s with pending := rest } := by
  have hitems (j : Instr) (hj : j ∈ is.flatMap expansion) : ∃ p, encode j = [p] ∧ p.decode = .ok j := by
    obtain ⟨i, hi, hji⟩ := List.mem_flatMap.mp hj
    exact item_of_mem_expansion (h i hi) hji
  rw [flatMap_encode_eq, core_run_items hitems, execAll_flatMap_expansion h]

/-- Instructions one after another do not look at what is presented next, and leave it. -/
theorem execAll_withPending {is : List Instr} {s t : State} (h : execAll is s = .next t) (rest : List Stimulus) :
    execAll is { s with pending := rest } = .next { t with pending := rest } := by
  induction is generalizing s with
  | nil => cases h; rfl
  | cons i is ih =>
    obtain ⟨u, hfirst, hrest⟩ := execAll_cons_eq_next_iff.mp h
    exact execAll_cons_eq_next_iff.mpr ⟨_, exec_withPending hfirst rest, ih hrest⟩

/-- The load of a reply of `n` bytes; with no byte read there is nothing to load (42_frame_transaction.md R76). -/
def loadReply (n : Fin 9) (buf : Frame) : List Instr :=
  if n.val = 0 then [] else [.fbLoad ((octetList buf).take n.val)]

/-- The instructions the host runs for a reply of `n` bytes (42_frame_transaction.md R76). -/
def transactionInstrs (n : Fin 9) (buf : Frame) : List Instr :=
  [.reqGetsn, .fbDump] ++ loadReply n buf ++ [.rspGetsn (BitVec.ofNat 4 n.val)]

section
variable (n : Fin 9) (buf : Frame)

theorem flatMap_encode_loadReply : (loadReply n buf).flatMap encode =
    if n.val = 0 then [] else encode (.fbLoad ((octetList buf).take n.val)) := by
  rw [loadReply]
  split_ifs
  · rfl
  · exact List.flatMap_singleton ..

theorem length_encode_loadReply : ((loadReply n buf).flatMap encode).length = n.val := by
  rw [flatMap_encode_loadReply]
  split_ifs with hn
  · exact hn.symm
  · exact (Laws.loadWords_length ..).trans (octetList_take_length buf n)

theorem wellFormed_loadReply : ∀ i ∈ loadReply n buf, i.wellFormed = true := by
  rw [loadReply]
  split_ifs with hn
  · exact fun _ h => nomatch h
  · refine List.forall_mem_singleton.mpr (decide_eq_true ?_)
    rw [octetList_take_length]
    exact ⟨Nat.pos_of_ne_zero hn, Nat.le_of_lt_succ n.isLt⟩

theorem execAll_loadReply (s : State) : execAll (loadReply n buf) s = .next (s.replyLoaded n buf) := by
  have hwf := wellFormed_loadReply n buf
  rw [loadReply] at hwf ⊢
  split_ifs at hwf ⊢ with hn
  · rw [State.replyLoaded, hn]; rfl
  · exact execAll_cons_eq_next_iff.mpr
      ⟨_, execFbLoad_eq_next_iff.mpr ⟨of_decide_eq_true (hwf _ (List.mem_singleton_self _)), rfl⟩, rfl⟩

theorem flatMap_encode_transactionInstrs :
    (transactionInstrs n buf).flatMap encode = encode .reqGetsn ++ encode .fbDump ++
      (if n.val = 0 then [] else encode (.fbLoad ((octetList buf).take n.val))) ++
      encode (.rspGetsn (BitVec.ofNat 4 n.val)) := by
  rw [← flatMap_encode_loadReply, transactionInstrs, List.flatMap_append, List.flatMap_append]
  rfl

theorem length_encode_transactionInstrs : ((transactionInstrs n buf).flatMap encode).length = 10 + n.val := by
  rw [transactionInstrs, List.flatMap_append, List.flatMap_append, List.length_append, List.length_append,
    length_encode_loadReply]
  show 9 + n.val + 1 = 10 + n.val
  omega

theorem wellFormed_transactionInstrs : ∀ i ∈ transactionInstrs n buf, i.wellFormed = true := by
  have hdecode : (Instr.rspGetsn (BitVec.ofNat 4 n.val)).wellFormed = true := decide_eq_true (toNat_ofNat_count_le n)
  exact List.forall_mem_append.mpr ⟨List.forall_mem_append.mpr ⟨by decide, wellFormed_loadReply n buf⟩,
    List.forall_mem_singleton.mpr hdecode⟩

/-- The instructions are steps 1 and 2, 6 and 7 of the procedure; the others are the host's (42_frame_transaction.md
R76). -/
theorem execAll_transactionInstrs (s : State) :
    execAll (transactionInstrs n buf) s = .next (s.reqGetsn.fbDump.replyDecoded n buf) := by
  have hrequest : execAll [.reqGetsn, .fbDump] s = .next s.reqGetsn.fbDump := rfl
  rw [transactionInstrs, List.append_assoc, execAll_append_of_next hrequest,
    execAll_append_of_next (execAll_loadReply n buf _)]
  rfl

end

/-- The frames sent are carried along by a load. -/
theorem State.fbLoadFrom_withSent (k : Nat) (bs : List Byte) (s : State) (fs : List Frame) :
    State.fbLoadFrom k bs { s with sent := fs } = { s.fbLoadFrom k bs with sent := fs } := by
  induction bs generalizing k s with
  | nil => rfl
  | cons b bs ih => exact ih (k + 1) (s.fbWr (BitVec.ofNat 3 k) b)

/-- The frames sent are carried along by steps 6 and 7 of the procedure (42_frame_transaction.md R76). -/
theorem State.replyDecoded_withSent (n : Fin 9) (buf : Frame) (s : State) (fs : List Frame) :
    State.replyDecoded n buf { s with sent := fs } = { s.replyDecoded n buf with sent := fs } := by
  simp only [State.replyDecoded, State.fbLoadFrom_withSent, State.rspGetsn, State.frmDecode_eq (toNat_ofNat_count_le n)]
  rfl

/-- Settles O47: the words run as their instructions, which do not look at what is presented next; the frame that the
procedure hands to the transport is carried along. -/
theorem transactionIsItsCommandWords : Obligations.TransactionIsItsCommandWords := by
  intro s rest n buf
  have hrun := core_run_instrs (wellFormed_transactionInstrs n buf) s rest
  rw [length_encode_transactionInstrs, flatMap_encode_transactionInstrs,
    execAll_withPending (execAll_transactionInstrs n buf s)] at hrun
  refine ⟨_, _, _, getSerialNumber_of_full_write n buf s, hrun, ?_⟩
  have hcarried : s.requestSent.replyDecoded n buf =
      { s.reqGetsn.fbDump.replyDecoded n buf with sent := s.requestSent.sent } := State.replyDecoded_withSent ..
  rw [hcarried]
  exact ⟨rfl, rfl, rfl, rfl, rfl, rfl, rfl⟩

end Sys2Proof.Machine
end

section
/-! What an error leaves as it was: the block's, delivered as a response (60_exceptions.md R88, R89), and the host's
PARTIAL_WRITE, which ends the transaction (60_exceptions.md R84, R87 (c)). -/

namespace Sys2Proof.Machine

open Sys2Proof.Safety

/-! ## Errors of the block -/

/-- The newest response after a response is the one given. -/
theorem State.statusOf_newest_of_respond {st : Status} {d : Data} {s : State} {rw : RespWord} {rs : List RespWord}
    (h : (s.respond st d).responses = rw :: rs) : statusOf rw = st.code := by
  obtain ⟨rfl, -⟩ := List.cons.inj h
  exact statusOf_resp st d

/-- Of the nine operations, all but FRM.DECODE can only answer OK, and FRM.DECODE writes no register, whatever it
answers (42_frame_transaction.md R73, 60_exceptions.md R88). -/
theorem ok_or_registers_kept_of_exec {i : Instr} (hoperation : i.isOperation = true) {s t : State} {rw : RespWord}
    (h : exec i s = .next t) (hresponse : t.responses = rw :: s.responses) :
    statusOf rw = 0x00#8 ∨ ∃ d rs, t = { s with draws := d, responses := rs } := by
  cases i with
  | crcInit | crcUpd | crcRd | fbWr | fbRd | frmStamp | frmVerify | frmBuild =>
    cases h
    exact .inl (State.statusOf_newest_of_respond hresponse)
  | frmDecode efam ecode n =>
    cases h
    obtain ⟨_, d, -, hdecoded⟩ := State.frmDecode_spec efam ecode n s
    exact .inr ⟨d, _, hdecoded⟩
  | reqGetsn | rspGetsn | checksumOf | fbLoad | fbDump | getsnReq | getsnRpl => cases hoperation

/-- Settles O9: a word that decodes is an operation, which answers an error only where it writes no register; any other
word is answered ILLEGAL_CMD and nothing else happens. -/
theorem errorsChangeNoState : Obligations.ErrorsChangeNoState := by
  intro s t cw rest rw hstep hresponse herror
  cases hdecode : decode cw with
  | ok i =>
    obtain ⟨hoperation, -, -⟩ := operation_of_decode hdecode
    rw [runsAs_of_decode hdecode] at hstep
    obtain ⟨d, rs, rfl⟩ := (ok_or_registers_kept_of_exec hoperation hstep hresponse).resolve_left herror
    exact ⟨rfl, rfl, rfl, rfl, rfl⟩
  | error e =>
    rw [answersIllegal_of_decode hdecode] at hstep
    cases hstep
    exact ⟨rfl, rfl, rfl, rfl, rfl⟩

/-! ## PARTIAL_WRITE -/

/-- After a short write the procedure ends with the request in the block, and the read is not looked at
(42_frame_transaction.md R76 step 4). -/
theorem getSerialNumber_of_partial_write {w : Fin 9} (h : w.val < 8) (rd : ReadAnswer) (s : State) :
    getSerialNumber (.count w) rd s = .next (.partialWrite 8 w.val, s.requestSent) := if_pos h

/-- Settles O45: the procedure ends in the state after steps 1 to 3, where the request stands in `FB`. -/
theorem partialWriteEndsTheTransaction : Obligations.PartialWriteEndsTheTransaction := by
  intro s w rd hw
  obtain ⟨rs, hsent⟩ := State.requestSent_eq s
  refine ⟨s.requestSent, getSerialNumber_of_partial_write hw rd s, ?_⟩
  rw [hsent]
  exact ⟨⟨rfl, rfl⟩, rfl⟩

end Sys2Proof.Machine
end

section
/-! No step stops, and no two kinds of operation disturb each other (70_reset_and_hazards.md R110, R111). -/

namespace Sys2Proof.Machine

open Sys2Proof.Safety

/-! ## Every step completes (R111) -/

/-- Settles O4: with nothing presented the state stays, and an item that is presented always completes. -/
theorem everyStepCompletes : Obligations.EveryStepCompletes := by
  intro s
  cases hpending : s.pending with
  | nil => exact ⟨s, step_of_pending_nil hpending⟩
  | cons p rest =>
    rw [step, hpending]
    exact present_completes p { s with pending := rest }

/-! ## The instructions of the checksum stream -/

/-- All that an instruction of the checksum stream does: it completes, takes `ACC` to a value that depends on `ACC`
alone, and answers (10_state.md R10). -/
theorem exec_eq_of_isCrcStream {i : Instr} (h : isCrcStream i = true) :
    ∃ f : Byte → Byte, ∀ s, ∃ rs, exec i s = .next { s with acc := f s.acc, responses := rs } := by
  cases i with
  | crcInit => exact ⟨fun _ => Config.init, fun s => ⟨_, rfl⟩⟩
  | crcUpd b => exact ⟨fun a => crc8Step a b, fun s => ⟨_, rfl⟩⟩
  | crcRd => exact ⟨id, fun s => ⟨_, rfl⟩⟩
  | checksumOf bs =>
    refine ⟨fun _ => checksum bs, fun s => ?_⟩
    obtain ⟨rs, -, heq⟩ := State.crcUpdAll_spec bs s.crcInit
    rw [exec, execChecksumOf, heq]
    exact ⟨_, rfl⟩
  | fbWr | fbRd | frmStamp | frmVerify | frmBuild | frmDecode | reqGetsn | rspGetsn | fbLoad | fbDump | getsnReq
  | getsnRpl => cases h

/-- An instruction outside the checksum stream does not write `ACC` (10_state.md R10). -/
theorem writesAcc_of_not_isCrcStream {i : Instr} (h : isCrcStream i = false) : writesAcc i = false := by
  cases i with
  | crcInit | crcUpd | checksumOf => cases h
  | crcRd | fbWr | fbRd | frmStamp | frmVerify | frmBuild | frmDecode | reqGetsn | rspGetsn | fbLoad | fbDump
  | getsnReq | getsnRpl => rfl

/-! ## The side of the state that the frame operations work on -/

/-- Two states that agree on `FB`, on its marks and draws (assumption log 3) and on the frames sent (assumption log 8);
they may differ in `ACC`, in the responses and in what is presented next. -/
structure SameFrameSide (s t : State) : Prop where
  fb : t.fb = s.fb
  written : t.written = s.written
  draws : t.draws = s.draws
  sent : t.sent = s.sent

namespace SameFrameSide

theorem refl (s : State) : SameFrameSide s s := ⟨rfl, rfl, rfl, rfl⟩

section
variable {s t : State} (h : SameFrameSide s t)
include h

/-! ### What the operations find in the frame buffer -/

theorem fbByte_eq (i : FbIndex) : t.fbByte i = s.fbByte i := by
  rw [State.fbByte, State.fbByte, h.fb, h.written, h.draws]

theorem fbFrame_eq : t.fbFrame = s.fbFrame := octet_ext fun i => by
  rw [State.octetGet_fbFrame, State.octetGet_fbFrame, h.fbByte_eq]

theorem addDraws (d : Nat) : SameFrameSide { s with draws := s.draws + d } { t with draws := t.draws + d } :=
  ⟨h.fb, h.written, congrArg (· + d) h.draws, h.sent⟩

theorem dumpedFrame_eq : t.dumpedFrame = s.dumpedFrame := by
  have hbyte : ∀ i, t.dumpedByte i = s.dumpedByte i := fun i => (h.addDraws i.toNat).fbByte_eq i
  simp only [State.dumpedFrame, hbyte]

/-! ### The shared operations keep the agreement -/

/-- The two may answer differently. -/
theorem respond (st st' : Status) (d d' : Data) : SameFrameSide (s.respond st d) (t.respond st' d') :=
  ⟨h.fb, h.written, h.draws, h.sent⟩

theorem drawn : SameFrameSide s.drawn t.drawn := h.addDraws 1

theorem writeFb (i : FbIndex) (b : Byte) : SameFrameSide (s.writeFb i b) (t.writeFb i b) :=
  ⟨congrArg (octetSet · i b) h.fb, congrArg (octetSet · i true) h.written, h.draws, h.sent⟩

theorem writeFrame (F : Frame) : SameFrameSide (s.writeFrame F) (t.writeFrame F) := ⟨rfl, rfl, h.draws, h.sent⟩

/-! ### The operations keep the agreement -/

theorem fbWr (i : FbIndex) (b : Byte) : SameFrameSide (s.fbWr i b) (t.fbWr i b) := (h.writeFb i b).respond ..

theorem fbRd (i : FbIndex) : SameFrameSide (s.fbRd i) (t.fbRd i) := h.drawn.respond ..

theorem frmVerify : SameFrameSide s.frmVerify t.frmVerify := h.drawn.respond ..

theorem frmStamp : SameFrameSide s.frmStamp t.frmStamp := by
  rw [State.frmStamp, State.frmStamp, h.fbFrame_eq]
  exact (h.drawn.writeFb ..).respond ..

theorem frmBuild (fam code p0 p1 p2 p3 : Byte) :
    SameFrameSide (s.frmBuild fam code p0 p1 p2 p3) (t.frmBuild fam code p0 p1 p2 p3) :=
  (h.writeFrame _).respond ..

/-- A short read draws nothing; every other result draws once (42_frame_transaction.md R72, R73). -/
theorem answerDecode (r : DecodeResult) : SameFrameSide (s.answerDecode r) (t.answerDecode r) := by
  cases r with
  | shortRead => exact h.respond ..
  | unexpectedReply | checksum | value => exact h.drawn.respond ..

theorem frmDecode (efam ecode : Byte) (n : BitVec 4) :
    SameFrameSide (s.frmDecode efam ecode n) (t.frmDecode efam ecode n) := by
  rw [State.frmDecode, State.frmDecode, h.fbFrame_eq]
  split
  · exact h.answerDecode _
  · exact h.respond ..

end

/-! ### The loops and the wire frames keep the agreement -/

theorem fbLoadFrom {s t : State} (h : SameFrameSide s t) (k : Nat) (bs : List Byte) :
    SameFrameSide (s.fbLoadFrom k bs) (t.fbLoadFrom k bs) := by
  induction bs generalizing k s t with
  | nil => exact h
  | cons b bs ih => exact ih (h.fbWr _ b) (k + 1)

theorem fbRdAll {s t : State} (h : SameFrameSide s t) (is : List FbIndex) :
    SameFrameSide (s.fbRdAll is) (t.fbRdAll is) := by
  induction is generalizing s t with
  | nil => exact h
  | cons i is ih => exact ih (h.fbRd i)

theorem dumpAndSend {s t : State} (h : SameFrameSide s t) : SameFrameSide s.dumpAndSend t.dumpAndSend := by
  obtain ⟨hfb, hwritten, hdraws, hsent⟩ := h.fbRdAll fbIndices
  exact ⟨hfb, hwritten, hdraws, congrArg₂ List.cons h.dumpedFrame_eq h.sent⟩

theorem receiveReply {s t : State} (h : SameFrameSide s t) (F : Frame) :
    SameFrameSide (s.receiveReply F) (t.receiveReply F) :=
  (h.fbLoadFrom 0 (octetList F)).frmDecode Config.getsnFamily Config.getsnCode 8#4

end SameFrameSide

/-- An instruction outside the checksum stream does to the frame side what the frame side alone determines. -/
theorem exec_sameFrameSide {i : Instr} (hi : isCrcStream i = false) {s t s' : State} (hrun : exec i s = .next t)
    (h : SameFrameSide s s') : ∃ t', exec i s' = .next t' ∧ SameFrameSide t t' := by
  cases i with
  | crcInit | crcUpd | crcRd | checksumOf => cases hi
  | fbLoad bs =>
    obtain ⟨hlen, rfl⟩ := execFbLoad_eq_next_iff.mp hrun
    exact ⟨_, execFbLoad_eq_next_iff.mpr ⟨hlen, rfl⟩, h.fbLoadFrom 0 bs⟩
  | fbWr k b => cases hrun; exact ⟨_, rfl, h.fbWr k b⟩
  | fbRd k => cases hrun; exact ⟨_, rfl, h.fbRd k⟩
  | frmStamp => cases hrun; exact ⟨_, rfl, h.frmStamp⟩
  | frmVerify => cases hrun; exact ⟨_, rfl, h.frmVerify⟩
  | frmBuild fam code p0 p1 p2 p3 => cases hrun; exact ⟨_, rfl, h.frmBuild fam code p0 p1 p2 p3⟩
  | frmDecode efam ecode n => cases hrun; exact ⟨_, rfl, h.frmDecode efam ecode n⟩
  | reqGetsn => cases hrun; exact ⟨_, rfl, h.frmBuild ..⟩
  | rspGetsn n => cases hrun; exact ⟨_, rfl, h.frmDecode _ _ n⟩
  | fbDump => cases hrun; exact ⟨_, rfl, h.fbRdAll fbIndices⟩
  | getsnReq => cases hrun; exact ⟨_, rfl, (h.frmBuild ..).dumpAndSend⟩
  | getsnRpl serial cc tt => cases hrun; exact ⟨_, rfl, h.receiveReply _⟩

/-! ## Leaving instructions out (R110) -/

/-- Running only the instructions to keep is a simulation, where each one kept preserves the relation between the two
runs, and so does each one left out, which moves the full run alone. -/
theorem execAll_filter_simulates {R : State → State → Prop} {keep : Instr → Bool}
    (hkept : ∀ i, keep i = true → ∀ s t s', exec i s = .next t → R s s' → ∃ t', exec i s' = .next t' ∧ R t t')
    (hleftOut : ∀ i, keep i = false → ∀ s t s', exec i s = .next t → R s s' → R t s')
    {is : List Instr} {s t s' : State} (hrun : execAll is s = .next t) (h : R s s') :
    ∃ t', execAll (is.filter keep) s' = .next t' ∧ R t t' := by
  induction is generalizing s s' with
  | nil => cases hrun; exact ⟨s', rfl, h⟩
  | cons i is ih =>
    obtain ⟨u, hfirst, hrest⟩ := execAll_cons_eq_next_iff.mp hrun
    cases hkeep : keep i with
    | false =>
      rw [List.filter_cons_of_neg (Bool.eq_false_iff.mp hkeep)]
      exact ih hrest (hleftOut i hkeep s u s' hfirst h)
    | true =>
      obtain ⟨u', hfirst', hu⟩ := hkept i hkeep s u s' hfirst h
      obtain ⟨t', hrest', ht⟩ := ih hrest hu
      rw [List.filter_cons_of_pos hkeep]
      exact ⟨t', execAll_cons_eq_next_iff.mpr ⟨u', hfirst', hrest'⟩, ht⟩

/-- The checksum stream alone ends with the same `ACC` (10_state.md R10). -/
theorem execAll_filter_isCrcStream {is : List Instr} {s t : State} (hrun : execAll is s = .next t) :
    ∃ u, execAll (is.filter isCrcStream) s = .next u ∧ u.acc = t.acc := by
  refine execAll_filter_simulates (R := fun s s' => s'.acc = s.acc) ?kept ?leftOut hrun rfl
  case kept =>
    intro i hi s t s' hexec hacc
    obtain ⟨f, hf⟩ := exec_eq_of_isCrcStream hi
    obtain ⟨rs, hs⟩ := hf s
    obtain ⟨rs', hs'⟩ := hf s'
    cases hs.symm.trans hexec
    exact ⟨_, hs', congrArg f hacc⟩
  case leftOut =>
    intro i hi s t s' hexec hacc
    exact hacc.trans ((exec_registerFrame hexec).acc (writesAcc_of_not_isCrcStream hi)).symm

/-- The frame operations alone end with the same frame side (10_state.md R10, 41_frame_codec.md R62). -/
theorem execAll_filter_not_isCrcStream {is : List Instr} {s t : State} (hrun : execAll is s = .next t) :
    ∃ v, execAll (is.filter fun i => !isCrcStream i) s = .next v ∧ SameFrameSide t v := by
  refine execAll_filter_simulates (R := SameFrameSide) ?kept ?leftOut hrun (.refl s)
  case kept =>
    intro i hi s t s' hexec h
    have hframe : isCrcStream i = false := by simpa using hi
    exact exec_sameFrameSide hframe hexec h
  case leftOut =>
    intro i hi s t s' hexec h
    have hcrc : isCrcStream i = true := by simpa using hi
    obtain ⟨f, hf⟩ := exec_eq_of_isCrcStream hcrc
    obtain ⟨rs, hs⟩ := hf s
    cases hs.symm.trans hexec
    exact ⟨h.fb, h.written, h.draws, h.sent⟩

/-- Settles O23: each kind of instruction reads and writes only its own side of the state, so the other kind can be
left out. -/
theorem crcStreamAndFrameOperationsDoNotInterfere : Obligations.CrcStreamAndFrameOperationsDoNotInterfere := by
  intro is s t hrun
  obtain ⟨v, hv, hfb, hwritten, hdraws, hsent⟩ := execAll_filter_not_isCrcStream hrun
  exact ⟨execAll_filter_isCrcStream hrun, v, hv, hfb, hwritten, hdraws, hsent⟩

end Sys2Proof.Machine
end
